-- ==== Sys2Proof/Word.lean ====
section
/-!
DEFINITION. The widths the manual gives its words, and the shape of a keyed table.
-/

namespace Sys2Proof

/-- One octet of a frame (section 10.5). -/
abbrev Octet := BitVec 8

/-- The 16-bit CRC register (R159). -/
abbrev Crc := BitVec 16

/-- An event serial (R151), wrapping after 4 294 967 295. -/
abbrev Serial := BitVec 32

/-- The generation of the active set (R35), wrapping after 65535. -/
abbrev Generation := BitVec 16

/-- The 160 line samples of one character (R158): sample i (1..16) of bit b (0 the start bit, 1..8 the
data bits, 9 the stop bit) is bit 16 * b + i - 1. -/
abbrev Samples := BitVec 160

/-- The four mask bits of a port: bit 0 EVT, 1 LOST, 2 LEAK, 3 LINK (R168). -/
abbrev Mask := BitVec 4

/-- A keyed table, its keys strictly rising; an unlisted key is an empty place. -/
abbrev Tbl (α : Type) := List (Nat × α)

/-- A set of indices, strictly rising. -/
abbrev IdxSet := List Nat

end Sys2Proof
end

