-- ==== Sys2Proof/Syntax.lean ====
section
/-!
DEFINITION. The commands of the part: one constructor for each row of spec/opcode_table.json.
A request row is the event in which the Request Service TAKES the oldest waiting frame of a port
(R160); its operand is that port, its fields stand in the frame's payload (section 10.5).
-/

namespace Sys2Proof

/-- The three link ports (00_scope.md, The three masters). -/
inductive Port where
  | a
  | b
  | c
  deriving DecidableEq, Repr

/-- The state of the backup supply against its threshold (R173). -/
inductive BackupState where
  | good
  | low
  deriving DecidableEq, Repr

/-- The commands, in the table's order. -/
inductive Instr where
  /-- READINGS (R11). -/
  | readings (p : Port)
  /-- TIME_SET (R55). -/
  | timeSet (p : Port)
  /-- TIME_GET (R58). -/
  | timeGet (p : Port)
  /-- EDIT_OPEN (R36). -/
  | editOpen (p : Port)
  /-- EDIT_METER (R38). -/
  | editMeter (p : Port)
  /-- EDIT_METER_DROP (R39). -/
  | editMeterDrop (p : Port)
  /-- EDIT_DMA (R40). -/
  | editDma (p : Port)
  /-- EDIT_DMA_DROP (R41). -/
  | editDmaDrop (p : Port)
  /-- EDIT_NIGHT (R42). -/
  | editNight (p : Port)
  /-- EDIT_COMMIT (R47). -/
  | editCommit (p : Port)
  /-- EDIT_DISCARD (R45). -/
  | editDiscard (p : Port)
  /-- CONFIG_READ (R51). -/
  | configRead (p : Port)
  /-- SUSPEND (R139). -/
  | suspend (p : Port)
  /-- RESUME (R140). -/
  | resume (p : Port)
  /-- SUSPEND_LIST (R144). -/
  | suspendList (p : Port)
  /-- LEAK_ACK (R113). -/
  | leakAck (p : Port)
  /-- REBASE (R115). -/
  | rebase (p : Port)
  /-- RELEARN (R116). -/
  | relearn (p : Port)
  /-- DMA_STATUS (R118). -/
  | dmaStatus (p : Port)
  /-- METER_STATUS (R27). -/
  | meterStatus (p : Port)
  /-- NIGHT_READ (R150). -/
  | nightRead (p : Port)
  /-- EVENT_READ (R154). -/
  | eventRead (p : Port)
  /-- FLAG_CLEAR (R169). -/
  | flagClear (p : Port)
  /-- FLAG_MASK (R169). -/
  | flagMask (p : Port)
  /-- PARAM_SET, the daylight-saving item (R59). -/
  | paramSetDaylightSaving (p : Port)
  /-- PARAM_SET, the port-settings item (R166). -/
  | paramSetPortSettings (p : Port)
  /-- PART_STATUS (R167). -/
  | partStatus (p : Port)
  /-- A taken frame of an undefined kind (R165). -/
  | unknownKind (p : Port)
  /-- 20 bit-times of idle on a port's receive line (R159). -/
  | frameEnd (p : Port)
  /-- The last stop bit of a port's response has been sent (R161). -/
  | responseSent (p : Port)
  /-- Port C reads back a character that differs from the one sent (R162). -/
  | echoMismatch
  /-- A break of 25 bit-times on a port's receive line (R163). -/
  | portReset (p : Port)
  /-- A port's line adopts its stored settings (R164). -/
  | portSettingsApplied (p : Port)
  /-- One second tick of the calendar's oscillator (R53). -/
  | calendarTick
  /-- The tick past the last second of the calendar's range (R54). -/
  | calendarRangeEnd
  /-- The calendar reaches the planned night's window start (R68). -/
  | windowStart
  /-- The calendar reaches the current night's window end (R69). -/
  | windowEnd
  /-- The calendar reaches the current night's grace end (R70). -/
  | graceEnd
  /-- The first event of a settlement run (R87). -/
  | infillPass
  /-- The hand-over of the district at the head of the remaining list (R101). -/
  | handOver
  /-- The completion of a run with nothing remaining (R81). -/
  | settlementComplete
  /-- The settlement end of the night cycle (R71). -/
  | settlementEnd
  /-- The District State Table takes the held burst entry of a district (R112). -/
  | burstEntry (d : Nat)
  /-- The staging hold's timer runs out (R43). -/
  | holdTimerExpiry
  /-- Main power returns, the backup supply then standing as given (R171). -/
  | powerUp (b : BackupState)
  /-- The reset line is asserted (R172). -/
  | resetLine
  /-- Main power falls (R170). -/
  | mainPowerLoss
  /-- With main power absent, the backup supply is below its threshold (R170). -/
  | backupLatchSet
  /-- While powered, the backup state falls to LOW (R173). -/
  | backupGoodToLow
  /-- While powered, the backup state returns to GOOD (R173). -/
  | backupLowToGood
  /-- A fall of a port's receive line and the samples that follow (R158); `idle` says that the line had
  been idle for at least 20 bit-times before the fall. -/
  | characterReceived (p : Port) (idle : Bool) (samples : Samples)
  deriving DecidableEq, Repr

end Sys2Proof
end

