-- ==== Sys2Proof/Config.lean ====
section
/-!
DEFINITION. The capacities and limits that the manual fixes, and the one free value: the order in which a grace
end takes several held burst entries.
-/

namespace Sys2Proof.Config

/-- Entries of the Event Queue (R151). -/
def eventCapacity : Nat := 128

/-- Records of one history ring (R146). -/
def ringCapacity : Nat := 32

/-- Entries of the Suspension List (R137). -/
def suspensionCapacity : Nat := 16

/-- Frames of a port's request queue (R160). -/
def queueCapacity : Nat := 2

/-- Octets a receiver stores of one frame (R159). -/
def frameOctets : Nat := 256

/-- Term slots of a configuration set (R30). -/
def poolSlots : Nat := 384

/-- The staging hold timer's start, in seconds (R43). -/
def holdSeconds : Nat := 300

/-- Where a line count holds (R158). -/
def countMax : Nat := 65535

/-- Where a lost count holds (R152). -/
def lostMax : Nat := 255

/-- Slots of a row of the Interval Store (R6). -/
def rowSlots : Nat := 24

/-- Seconds of one interval (R8). -/
def intervalSeconds : Nat := 900

/-- Seconds of one day (R53). -/
def daySeconds : Nat := 86400

/-- The last second of the calendar's range, 2099-12-31 23:59:59 (R54). -/
def lastSecond : Nat := 3155759999

/-- 2099-12-31 23:00:00, beyond which no planned grace end lies (R64). -/
def lastGraceEnd : Nat := 3155756400

/-- The largest day number (00_scope.md, Time). -/
def lastDay : Nat := 36524

/-- The largest size of a step that is a trim (R56). -/
def trimSeconds : Nat := 60

/-- The normalisation bound (R99). -/
def normBound : Nat := 1186280596

/-- Q16 one (00_scope.md, Units). -/
def q16 : Nat := 65536

/-- The lower clamp of the pressure ratio (R96). -/
def ratioMin : Nat := 32768

/-- The upper clamp of the pressure ratio (R96). -/
def ratioMax : Nat := 131072

/-- The broadcast address (R159). -/
def broadcast : Octet := 0xFF

/-- The CRC register's start (R159). -/
def crcStart : Crc := 0xFFFF

/-- The CRC polynomial without its top term (R159). -/
def crcPoly : Crc := 0x1021

/-- A free value: the rank of district d among the burst entries that the grace end at instant t takes, the next
serial being n. The manual gives those entries no order among themselves (log 9). -/
opaque heldRank (t n d : Nat) : Nat

end Sys2Proof.Config
end

