-- ==== Sys2Proof/Machine/State.lean ====
section
/-!
DEFINITION. Every piece of state the manual gives the part, as plain data, one structure for each block
(00_scope.md, Block overview), with its named updates, and the state after reset.
-/

namespace Sys2Proof.Machine

/-! ### Link ports (chapters 9 and 10) -/

/-- One value for each of the three ports. -/
structure PerPort (α : Type) where
  a : α
  b : α
  c : α
  deriving DecidableEq, Repr

/-- The status codes of section 10.3, in code order. -/
inductive Status where
  | ok
  | already
  | role
  | format
  | range
  | noTime
  | unknownMeter
  | unknownDma
  | held
  | notHolder
  | invalid
  | full
  | notSuspended
  | notInLeak
  | stale
  | noNight
  deriving DecidableEq, Repr

/-- The five baud rates of R164, in the order of R166's codes. -/
inductive Baud where
  | b9600
  | b19200
  | b38400
  | b57600
  | b115200
  deriving DecidableEq, Repr

/-- A port's two settings (R164). -/
structure PortSettings where
  unitAddr : Octet
  baud : Baud
  deriving DecidableEq, Repr

/-- How far a settings change has come (R164): none under way; stored, with the PARAM_SET response not
yet finished on port B; stored, with that response finished. -/
inductive SettingsChange where
  | settled
  | awaiting
  | ready
  deriving DecidableEq, Repr

/-- An accepted request frame (R159), its CRC checked and taken off. -/
structure Frame where
  addr : Octet
  kind : Octet
  tag : Octet
  payload : List Octet
  deriving DecidableEq, Repr

/-- The frame being assembled (R158, R159): the octets stored, whether more than 256 came, and the mark
that condemns it. -/
structure RxFrame where
  octets : List Octet
  overlong : Bool
  condemned : Bool
  deriving DecidableEq, Repr

/-- A port's receiver. `waitIdle` holds while it waits for 20 bit-times of idle before it searches for a
start bit (R162, R163, R164). -/
structure Receiver where
  frame : Option RxFrame
  waitIdle : Bool
  deriving DecidableEq, Repr

/-- A response (R161), its CRC left to the line (`Response.octets`). -/
structure Response where
  addr : Octet
  kind : Octet
  tag : Octet
  status : Status
  payload : List Octet
  deriving DecidableEq, Repr

/-- The response being sent, and how many of its characters port C has read back (R162). -/
structure Transmission where
  response : Response
  echoed : Nat
  deriving DecidableEq, Repr

/-- One link port. `settings` is retained; `line` is what its line uses (R164). -/
structure PortState where
  settings : PortSettings
  line : PortSettings
  change : SettingsChange
  receiver : Receiver
  queue : List Frame
  transmitter : Option Transmission
  noise : Nat
  discard : Nat
  bitError : Nat
  lost : Bool
  link : Bool
  lostCount : Nat
  mask : Mask
  deriving DecidableEq, Repr

/-! ### Configuration (chapter 2) -/

/-- A meter's kind; a FLOW meter holds its pulse weight code 0..6 (R2, R3). -/
inductive MeterKind where
  | flow (weight : Nat)
  | pressure
  deriving DecidableEq, Repr

/-- The configuration part of a meter entry (section 1.1). -/
structure MeterEntry where
  address : Nat
  kind : MeterKind
  maximum : Nat
  infill : Bool
  deriving DecidableEq, Repr

/-- The sign of a term (R29). -/
inductive Sign where
  | inlet
  | outlet
  deriving DecidableEq, Repr

/-- A term: one meter index with a sign (R29). -/
structure Term where
  meter : Nat
  sign : Sign
  deriving DecidableEq, Repr

/-- The configuration part of a district entry (R28). -/
structure DistrictEntry where
  code : Nat
  terms : List Term
  properties : Nat
  perProperty : Nat
  nonHousehold : Nat
  pressurePoint : Option Nat
  refPressure : Nat
  exponent : Nat
  minCoverage : Nat
  absThreshold : Nat
  relThreshold : Nat
  confirmNights : Nat
  clearNights : Nat
  learnNights : Nat
  shift : Nat
  burstThreshold : Nat
  deriving DecidableEq, Repr

/-- The night parameters (R33): local window start, window length n, grace. -/
structure NightParams where
  start : Nat
  length : Nat
  grace : Nat
  deriving DecidableEq, Repr

/-- A configuration set (R28, R34). -/
structure ConfigSet where
  meters : Tbl MeterEntry
  districts : Tbl DistrictEntry
  night : NightParams
  deriving DecidableEq, Repr

/-- The pending set with the port whose commit made it (R34). -/
structure PendingSet where
  config : ConfigSet
  port : Port
  deriving DecidableEq, Repr

/-- The staging hold: its port, the staging set, the hold timer in seconds (R36, R43). A staging set
exists exactly while a hold exists. -/
structure Hold where
  port : Port
  staging : ConfigSet
  timer : Nat
  deriving DecidableEq, Repr

/-- The Configuration Store (R34, R35, R36). -/
structure ConfigStore where
  active : ConfigSet
  generation : Generation
  pending : Option PendingSet
  hold : Option Hold
  deriving DecidableEq, Repr

/-! ### Reading Intake (chapter 1) -/

/-- A meter's condition (R5). -/
inductive Condition where
  | active
  | silent
  deriving DecidableEq, Repr

/-- The retained runtime of a meter (R5). -/
structure MeterRuntime where
  condition : Condition
  silentNights : Nat
  deriving DecidableEq, Repr

/-- A slot of the Interval Store (R7). -/
inductive Slot where
  | empty
  | filled (v : Nat)
  | conflict
  | estimated (v : Nat)
  deriving DecidableEq, Repr

/-- Reading Intake: the retained runtime, the Interval Store (keyed by 24 * meter + slot, an unlisted
slot EMPTY) and the three nightly marks, each as the set of meters that carry it (R5, R6). -/
structure Intake where
  runtime : Tbl MeterRuntime
  store : Tbl Slot
  heard : IdxSet
  suspended : IdxSet
  rangeReported : IdxSet
  deriving DecidableEq, Repr

/-! ### Calendar and Night Cycle (chapter 3) -/

/-- A daylight-saving rule (R59). -/
structure DstRule where
  month : Nat
  week : Nat
  weekday : Nat
  hour : Nat
  deriving DecidableEq, Repr

/-- The daylight-saving rules (R59). -/
structure DstRules where
  enabled : Bool
  start : DstRule
  stop : DstRule
  deriving DecidableEq, Repr

/-- A night plan (R63): the night date, the offset in intervals, the window start W, the window length n
and the grace end, the last three in absolute intervals. -/
structure NightPlan where
  date : Nat
  offset : Nat
  window : Nat
  length : Nat
  graceEnd : Nat
  deriving DecidableEq, Repr

/-- The closed window (R66). -/
structure ClosedWindow where
  date : Nat
  window : Nat
  length : Nat
  deriving DecidableEq, Repr

/-- The night phase with the plan that goes with it (R66). -/
inductive NightCycle where
  | halted
  | day (planned : Option NightPlan)
  | opened (current : NightPlan)
  | grace (current : NightPlan)
  | settling (current : NightPlan)
  deriving DecidableEq, Repr

/-- What a loss of the main domain's content broke off, of a night (R76, R83, R172; log 39): nothing, night d in OPEN or
GRACE, or night d in SETTLING. -/
inductive BrokenOff where
  | nothing
  | collecting (d : Nat)
  | settling (d : Nat)
  deriving DecidableEq, Repr

/-- The Calendar and Night Cycle (R53, R59, R66). `entryDue` holds from a TIME_SET taken in SETTLING with
the calendar INVALID to that night's settlement end (R75; log 24). The last two are what a start-up must remember of the
nights before it (R76, R83, R172; log 39): `leftOut` the nights whose settlement a loss of main power or the reset line
has ended, until retention lapses; `brokenOff` what the last of them broke off, until its start-up. -/
structure Calendar where
  t : Nat
  valid : Bool
  rules : DstRules
  cycle : NightCycle
  clockStepped : Bool
  disturbed : Bool
  closed : Option ClosedWindow
  horizon : Option Nat
  entryDue : Bool
  leftOut : IdxSet
  brokenOff : BrokenOff
  deriving DecidableEq, Repr

/-! ### Settlement Unit (chapter 4) -/

/-- A settlement run (R78). `infilled` holds once the infill pass has been taken (R79). -/
structure Run where
  date : Nat
  window : Nat
  length : Nat
  clockStepped : Bool
  disturbed : Bool
  infilled : Bool
  remaining : List Nat
  assessed : Nat
  high : Nat
  notAssessed : Nat
  deriving DecidableEq, Repr

/-! ### District State Table (chapter 5) -/

/-- The alarm states of R104, in the order of section 10.5's codes. -/
inductive AlarmState where
  | learning
  | quiet
  | watch
  | leak
  | standing
  deriving DecidableEq, Repr

/-- The causes of a leak (R103), in the order of section 10.5's codes. -/
inductive Cause where
  | nights
  | burst
  | burstOnStanding
  deriving DecidableEq, Repr

/-- An alarm record (R103). -/
structure AlarmRecord where
  night : Nat
  cause : Cause
  deriving DecidableEq, Repr

/-- A district's runtime (R103). -/
structure DistrictRuntime where
  alarm : AlarmState
  baseline : Option Nat
  learnCount : Nat
  highCount : Nat
  normalCount : Nat
  record : Option AlarmRecord
  lastSettled : Option Nat
  configMark : Bool
  deriving DecidableEq, Repr

/-! ### Burst Watch (chapter 6) and Suspension List (chapter 7) -/

/-- The Burst Watch (R124): for each district its burst marks, its burst-raised mark, and its held entry
as the night date the entry names. -/
structure BurstWatch where
  marks : Tbl IdxSet
  raised : IdxSet
  held : Tbl Nat
  deriving DecidableEq, Repr

/-- A suspension entry; its meter is its key in the list (R137). -/
structure Suspension where
  untilNight : Nat
  setBy : Port
  deriving DecidableEq, Repr

/-! ### History Store and Event Queue (chapter 8) -/

/-- The results of a settled night (R145). -/
inductive NightResult where
  | learnt
  | normal
  | high
  | notAssessed
  deriving DecidableEq, Repr

/-- The reasons of a NOT_ASSESSED night (R85, R90). -/
inductive Reason where
  | disturbed
  | suspended
  | incomplete
  deriving DecidableEq, Repr

/-- The eight conditions of R100. -/
structure Conditions where
  negativeFlow : Bool
  belowAllowance : Bool
  uncorrected : Bool
  pressureClamped : Bool
  infilled : Bool
  burst : Bool
  clockStepped : Bool
  newConfig : Bool
  deriving DecidableEq, Repr

/-- A night record (R145). -/
structure NightRecord where
  date : Nat
  code : Nat
  result : NightResult
  reason : Option Reason
  conditions : Conditions
  positions : Nat
  minPosition : Option Nat
  mnf : Option Int
  lnu : Nat
  leakage : Option Nat
  pavg : Option Nat
  lnorm : Option Nat
  baselineAfter : Option Nat
  alarmAfter : AlarmState
  deriving DecidableEq, Repr

/-- The sixteen event kinds of R151, in the order of section 10.5's codes (1..16). -/
inductive EventKind where
  | leakRaised
  | watchEntered
  | leakAcked
  | leakCleared
  | repairConfirmed
  | districtLearnt
  | nightSettled
  | meterSilent
  | meterHeard
  | meterRange
  | configInstalled
  | stagingDropped
  | clockSet
  | suspensionExpired
  | retentionLapsed
  | backupLow
  deriving DecidableEq, Repr

/-- An event entry (R151). -/
structure Event where
  serial : Serial
  kind : EventKind
  subject : Nat
  night : Nat
  detail : Int
  deriving DecidableEq, Repr

/-- The Event Queue (R151, R153): its entries oldest first, the next serial, the three cursors. -/
structure EventQueue where
  entries : List Event
  next : Serial
  cursors : PerPort Serial
  deriving DecidableEq, Repr

/-! ### Retention Domain (chapter 11) -/

/-- The verdicts of a power-up (R171). -/
inductive Verdict where
  | intact
  | lapsed
  deriving DecidableEq, Repr

/-- The Retention Domain's own state (R170, R173), with whether main power is present. -/
structure Retention where
  powered : Bool
  verdict : Verdict
  latch : Bool
  backup : BackupState
  deriving DecidableEq, Repr

/-! ### The machine -/

/-- The whole part, and the queue of the commands that wait. -/
structure State where
  pending : List Instr
  intake : Intake
  config : ConfigStore
  calendar : Calendar
  settlement : Option Run
  districts : Tbl DistrictRuntime
  burst : BurstWatch
  suspensions : Tbl Suspension
  history : Tbl (List NightRecord)
  events : EventQueue
  ports : PerPort PortState
  retention : Retention
  deriving DecidableEq, Repr

/-- The part has no fault state (INVENTORY.md, Faults): nothing raises a fault. -/
inductive Fault where
  deriving DecidableEq, Repr

/-- Why a command has no meaning. -/
inductive Refusal where
  /-- Raised by an arm of `exec` for a row that is not modelled yet; safe, since nothing can be proved of
  what that row does. No arm raises it now. -/
  | notModelled (mnemonic : String)
  deriving DecidableEq, Repr

/-! ### Named updates -/

/-- Replaces Reading Intake. -/
def State.setIntake (s : State) (x : Intake) : State := { s with intake := x }

/-- Replaces the Configuration Store. -/
def State.setConfig (s : State) (x : ConfigStore) : State := { s with config := x }

/-- Replaces the Calendar and Night Cycle. -/
def State.setCalendar (s : State) (x : Calendar) : State := { s with calendar := x }

/-- Replaces the Settlement Unit's run. -/
def State.setSettlement (s : State) (x : Option Run) : State := { s with settlement := x }

/-- Replaces the District State Table. -/
def State.setDistricts (s : State) (x : Tbl DistrictRuntime) : State := { s with districts := x }

/-- Replaces the Burst Watch. -/
def State.setBurst (s : State) (x : BurstWatch) : State := { s with burst := x }

/-- Replaces the Suspension List. -/
def State.setSuspensions (s : State) (x : Tbl Suspension) : State := { s with suspensions := x }

/-- Replaces the History Store. -/
def State.setHistory (s : State) (x : Tbl (List NightRecord)) : State := { s with history := x }

/-- Replaces the Event Queue. -/
def State.setEvents (s : State) (x : EventQueue) : State := { s with events := x }

/-- Replaces the three ports. -/
def State.setPorts (s : State) (x : PerPort PortState) : State := { s with ports := x }

/-- Replaces the Retention Domain's own state. -/
def State.setRetention (s : State) (x : Retention) : State := { s with retention := x }

/-- One port's value. -/
def PerPort.get {α : Type} (x : PerPort α) : Port → α
  | .a => x.a
  | .b => x.b
  | .c => x.c

/-- Replaces one port's value. -/
def PerPort.set {α : Type} (x : PerPort α) (p : Port) (v : α) : PerPort α :=
  match p with
  | .a => { x with a := v }
  | .b => { x with b := v }
  | .c => { x with c := v }

/-- The same function of every port's value. -/
def PerPort.map {α β : Type} (f : α → β) (x : PerPort α) : PerPort β := ⟨f x.a, f x.b, f x.c⟩

/-- One port. -/
def State.port (s : State) (p : Port) : PortState := s.ports.get p

/-- Replaces one port. -/
def State.setPort (s : State) (p : Port) (x : PortState) : State := s.setPorts (s.ports.set p x)

/-! ### Values after reset -/

/-- The default night parameters (R33). -/
def NightParams.default : NightParams := ⟨8, 8, 8⟩

/-- The set a LAPSED power-up makes active (R52). -/
def ConfigSet.lapsed : ConfigSet := ⟨[], [], NightParams.default⟩

/-- The daylight-saving rules after a LAPSED power-up (R77). -/
def DstRules.lapsed : DstRules := ⟨false, ⟨1, 1, 0, 0⟩, ⟨1, 1, 0, 0⟩⟩

/-- The unit addresses after a LAPSED power-up (R164). -/
def PortSettings.lapsed : Port → PortSettings
  | .a => ⟨0x10, .b9600⟩
  | .b => ⟨0x20, .b9600⟩
  | .c => ⟨0x30, .b9600⟩

/-- A port after a start-up, with the settings it retains (R164, R168). -/
def PortState.started (x : PortSettings) : PortState :=
  { settings := x, line := x, change := .settled, receiver := ⟨none, false⟩, queue := [],
    transmitter := none, noise := 0, discard := 0, bitError := 0, lost := false, link := false,
    lostCount := 0, mask := 0xF }

/-- The Event Queue before a start-up appends anything (R157). -/
def EventQueue.started : EventQueue := ⟨[], 0, ⟨0, 0, 0⟩⟩

/-- Reset: the state that a LAPSED power-up with a GOOD backup supply leaves (R171; log 25). -/
def State.reset : State :=
  { pending := []
    intake := ⟨[], [], [], [], []⟩
    config := ⟨ConfigSet.lapsed, 0, none, none⟩
    calendar :=
      { t := 0, valid := false, rules := DstRules.lapsed, cycle := .halted, clockStepped := false,
        disturbed := false, closed := none, horizon := none, entryDue := false,
        leftOut := [], brokenOff := .nothing }
    settlement := none
    districts := []
    burst := ⟨[], [], []⟩
    suspensions := []
    history := []
    events := ⟨[⟨0, .retentionLapsed, 0, 0, 0⟩], 1, ⟨0, 0, 0⟩⟩
    ports := ⟨.started (.lapsed .a), .started (.lapsed .b), .started (.lapsed .c)⟩
    retention := ⟨true, .lapsed, false, .good⟩ }

end Sys2Proof.Machine
end

