-- ==== Sys2Proof/Machine/Ops.lean ====
section
/-!
DEFINITION. The named operations that the meanings share: keyed tables and index sets, the codes of
section 10.5's small fields, the slots of the Interval Store, the current night, and the append to the
Event Queue.
-/

namespace Sys2Proof.Machine

/-! ### Keyed tables and index sets -/

/-- The value at a key, if the place is not empty. -/
def tget {α : Type} (t : Tbl α) (k : Nat) : Option α :=
  match t with
  | [] => none
  | (k', v) :: rest => if k' = k then some v else tget rest k

/-- Writes a key's value, replacing what the place held, and keeps the keys rising. -/
def tput {α : Type} (t : Tbl α) (k : Nat) (v : α) : Tbl α :=
  match t with
  | [] => [(k, v)]
  | (k', v') :: rest =>
    if k < k' then (k, v) :: (k', v') :: rest
    else if k' = k then (k, v) :: rest
    else (k', v') :: tput rest k v

/-- Empties a place. -/
def tdel {α : Type} (t : Tbl α) (k : Nat) : Tbl α := t.filter (fun e => decide (e.1 ≠ k))

/-- The places that are not empty, in increasing order. -/
def tkeys {α : Type} (t : Tbl α) : List Nat := t.map Prod.fst

/-- The canonical form of a table: keys strictly rising. -/
def tableWf {α : Type} (t : Tbl α) : Bool := decide (t.Pairwise (fun x y => x.1 < y.1))

/-- Adds an index to a set. -/
def insertIdx (l : IdxSet) (k : Nat) : IdxSet :=
  match l with
  | [] => [k]
  | k' :: rest =>
    if k < k' then k :: k' :: rest
    else if k' = k then k' :: rest
    else k' :: insertIdx rest k

/-- Whether an index is in a set. -/
def hasIdx (l : IdxSet) (k : Nat) : Bool := decide (k ∈ l)

/-- The canonical form of an index set: strictly rising. -/
def idxWf (l : IdxSet) : Bool := decide (l.Pairwise (fun x y => x < y))

/-! ### Ports and codes -/

/-- The code of a port in subjects, details and payloads (R151). -/
def portCode : Port → Nat
  | .a => 0
  | .b => 1
  | .c => 2

/-- The port of a code (R166). -/
def portOfCode : Nat → Option Port
  | 0 => some .a
  | 1 => some .b
  | 2 => some .c
  | _ => none

/-- The status codes of section 10.3. -/
def statusCode : Status → Nat
  | .ok => 0x00
  | .already => 0x01
  | .role => 0x02
  | .format => 0x03
  | .range => 0x04
  | .noTime => 0x05
  | .unknownMeter => 0x06
  | .unknownDma => 0x07
  | .held => 0x08
  | .notHolder => 0x09
  | .invalid => 0x0A
  | .full => 0x0B
  | .notSuspended => 0x0C
  | .notInLeak => 0x0D
  | .stale => 0x0E
  | .noNight => 0x0F

/-- The baud codes of R166. -/
def baudCode : Baud → Nat
  | .b9600 => 0
  | .b19200 => 1
  | .b38400 => 2
  | .b57600 => 3
  | .b115200 => 4

/-- The baud rate of a code (R166). -/
def baudOfCode : Nat → Option Baud
  | 0 => some .b9600
  | 1 => some .b19200
  | 2 => some .b38400
  | 3 => some .b57600
  | 4 => some .b115200
  | _ => none

/-- The alarm state codes of the night record (section 10.5). -/
def alarmCode : AlarmState → Nat
  | .learning => 0
  | .quiet => 1
  | .watch => 2
  | .leak => 3
  | .standing => 4

/-- The cause codes of section 10.5. -/
def causeCode : Cause → Nat
  | .nights => 0
  | .burst => 1
  | .burstOnStanding => 2

/-- The event kind codes of section 10.5. -/
def eventCode : EventKind → Nat
  | .leakRaised => 1
  | .watchEntered => 2
  | .leakAcked => 3
  | .leakCleared => 4
  | .repairConfirmed => 5
  | .districtLearnt => 6
  | .nightSettled => 7
  | .meterSilent => 8
  | .meterHeard => 9
  | .meterRange => 10
  | .configInstalled => 11
  | .stagingDropped => 12
  | .clockSet => 13
  | .suspensionExpired => 14
  | .retentionLapsed => 15
  | .backupLow => 16

/-- A count that holds once it has reached a limit (R158, R152). -/
def countUp (limit n : Nat) : Nat := min (n + 1) limit

/-- A port's noise count rises (R158). -/
def PortState.countNoise (x : PortState) : PortState :=
  { x with noise := countUp Config.countMax x.noise }

/-- A frame of the port is discarded: its discard count rises and LINK is set (R159, R160). -/
def PortState.countDiscard (x : PortState) : PortState :=
  { x with discard := countUp Config.countMax x.discard, link := true }

/-! ### The Interval Store -/

/-- The key of slot k of meter m's row. -/
def slotKey (m k : Nat) : Nat := Config.rowSlots * m + k

/-- Slot k of meter m's row; an unlisted slot is EMPTY (R6). -/
def slotAt (store : Tbl Slot) (m k : Nat) : Slot := (tget store (slotKey m k)).getD .empty

/-- Writes slot k of meter m's row. -/
def putSlot (store : Tbl Slot) (m k : Nat) (v : Slot) : Tbl Slot := tput store (slotKey m k) v

/-- The canonical form of the Interval Store: keys strictly rising and no slot listed as EMPTY. -/
def storeWf (store : Tbl Slot) : Bool :=
  tableWf store && store.all (fun e => decide (e.2 ≠ .empty))

/-! ### The current night -/

/-- The plan of the current night, in OPEN, GRACE and SETTLING (R66). -/
def currentPlan (c : NightCycle) : Option NightPlan :=
  match c with
  | .opened p | .grace p | .settling p => some p
  | .halted | .day _ => none

/-- The plan whose window is current for intake, in OPEN and GRACE (R14). -/
def filingPlan (c : NightCycle) : Option NightPlan :=
  match c with
  | .opened p | .grace p => some p
  | .halted | .day _ | .settling _ => none

/-- The plan the phase carries: the planned night in DAY, the current night in OPEN, GRACE and SETTLING. -/
def carriedPlan (c : NightCycle) : Option NightPlan :=
  match c with
  | .halted => none
  | .day p => p
  | .opened p | .grace p | .settling p => some p

/-- The night date of an event whose rule states none (R151): the current night, the planned night, or 0. -/
def eventNight (s : State) : Nat :=
  match carriedPlan s.calendar.cycle with
  | some p => p.date
  | none => 0

/-- Installation takes place in DAY and HALTED (R49). -/
def installPhase (c : NightCycle) : Bool :=
  match c with
  | .halted | .day _ => true
  | .opened _ | .grace _ | .settling _ => false

/-! ### The Event Queue -/

/-- A port loses an entry from under its cursor (R152, step 1). -/
def PortState.loseEntry (x : PortState) : PortState :=
  { x with lost := true, lostCount := countUp Config.lostMax x.lostCount }

/-- The serial of the oldest entry, or the next serial when the queue is empty (R154). -/
def EventQueue.oldest (q : EventQueue) : Serial :=
  match q.entries with
  | [] => q.next
  | e :: _ => e.serial

/-- A cursor at a removed entry moves to the entry that is now oldest (R152, step 1). -/
def moveCursor (removed oldest cursor : Serial) : Serial :=
  if cursor = removed then oldest else cursor

/-- Charges a removal to a port whose cursor pointed at the removed entry (R152, step 1). -/
def chargeLost (removed cursor : Serial) (x : PortState) : PortState :=
  if cursor = removed then x.loseEntry else x

/-- A full queue gives up its oldest entry (R152, step 1). -/
def State.makeRoom (s : State) : State :=
  match s.events.entries with
  | [] => s
  | e :: rest =>
    if s.events.entries.length < Config.eventCapacity then s
    else
      let q : EventQueue := { s.events with entries := rest }
      let cs := s.events.cursors
      (s.setEvents { q with cursors := cs.map (moveCursor e.serial q.oldest) }).setPorts
        ⟨chargeLost e.serial cs.a s.ports.a, chargeLost e.serial cs.b s.ports.b,
          chargeLost e.serial cs.c s.ports.c⟩

/-- An append to the Event Queue (R152). -/
def State.append (s : State) (kind : EventKind) (subject night : Nat) (detail : Int) : State :=
  let r := s.makeRoom
  r.setEvents
    { r.events with
      entries := r.events.entries ++ [⟨r.events.next, kind, subject, night, detail⟩]
      next := r.events.next + 1 }

/-- The number of a port's unread entries (R153). -/
def EventQueue.unread (q : EventQueue) (p : Port) : Nat := (q.next - q.cursors.get p).toNat

end Sys2Proof.Machine
end

