-- ==== Sys2Proof/Machine/Time.lean ====
section
/-!
DEFINITION. The calendar quantities derived from the count t (R53), and daylight saving (R60, R61).
-/

namespace Sys2Proof.Machine

/-- The day number of an instant (R53). -/
def dayNumber (t : Nat) : Nat := t / Config.daySeconds

/-- The second of day of an instant (R53). -/
def secondOfDay (t : Nat) : Nat := t - Config.daySeconds * dayNumber t

/-- The interval of day of an instant (R53). -/
def intervalOfDay (t : Nat) : Nat := secondOfDay t / Config.intervalSeconds

/-- The absolute interval of an instant (R53). -/
def absInterval (t : Nat) : Nat := t / Config.intervalSeconds

/-- The weekday of a day number, 0 Sunday to 6 Saturday (R53). -/
def weekday (day : Nat) : Nat := (day + 6) % 7

/-- Whether a year of the calendar's range is a leap year (R53). -/
def leapYear (year : Nat) : Bool := decide (year % 4 = 0)

/-- The length of a month (R53). -/
def monthLength (year month : Nat) : Nat :=
  match month with
  | 2 => if leapYear year then 29 else 28
  | 4 | 6 | 9 | 11 => 30
  | _ => 31

/-- The days of the months of a year that come before a month. -/
def daysBeforeMonth (year month : Nat) : Nat :=
  ((List.range (month - 1)).map (fun i => monthLength year (i + 1))).sum

/-- The days from 1 January 2000 to 1 January of a year (R53). -/
def daysBeforeYear (year : Nat) : Nat := 365 * (year - 2000) + (year - 2000 + 3) / 4

/-- The day number of a date (R53). -/
def dayOfDate (year month day : Nat) : Nat :=
  daysBeforeYear year + daysBeforeMonth year month + (day - 1)

/-- The year a day number lies in; four years are 1461 days, the first of them a leap year. -/
def yearOfDay (day : Nat) : Nat :=
  let r := day % 1461
  2000 + 4 * (day / 1461) + (if r < 366 then 0 else 1 + (r - 366) / 365)

/-- A date and time of day (R55, R58). -/
structure CivilTime where
  year : Nat
  month : Nat
  day : Nat
  hour : Nat
  minute : Nat
  second : Nat
  deriving DecidableEq, Repr

/-- The month, from the given one on, and the day of month of a day counted from that month's first. -/
def monthAndDay (year : Nat) (fuel month rest : Nat) : Nat × Nat :=
  match fuel with
  | 0 => (month, rest + 1)
  | fuel + 1 =>
    if rest < monthLength year month then (month, rest + 1)
    else monthAndDay year fuel (month + 1) (rest - monthLength year month)

/-- The date and time of an instant (R53). -/
def civilOf (t : Nat) : CivilTime :=
  let day := dayNumber t
  let year := yearOfDay day
  let md := monthAndDay year 11 1 (day - daysBeforeYear year)
  let sec := secondOfDay t
  ⟨year, md.1, md.2, sec / 3600, sec / 60 % 60, sec % 60⟩

/-- The instant of a date and time. -/
def instantOf (c : CivilTime) : Nat :=
  Config.daySeconds * dayOfDate c.year c.month c.day + 3600 * c.hour + 60 * c.minute + c.second

/-- The ranges of R55: year 2000..2099, month, day of that month, hour, minute, second. -/
def civilInRange (c : CivilTime) : Bool :=
  decide (2000 ≤ c.year ∧ c.year ≤ 2099 ∧ 1 ≤ c.month ∧ c.month ≤ 12 ∧ 1 ≤ c.day ∧
    c.day ≤ monthLength c.year c.month ∧ c.hour ≤ 23 ∧ c.minute ≤ 59 ∧ c.second ≤ 59)

/-- The day number a rule names in a year (R60): weeks 1 to 4 the first to fourth occurrence of the
weekday in the month, week 5 the last. -/
def ruleDay (r : DstRule) (year : Nat) : Nat :=
  let first := dayOfDate year r.month 1
  let gap := (r.weekday + 7 - weekday first) % 7
  if r.week ≤ 4 then first + gap + 7 * (r.week - 1)
  else if gap + 28 < monthLength year r.month then first + gap + 28
  else first + gap + 21

/-- The instant a rule names in a year (R60). -/
def ruleInstant (r : DstRule) (year : Nat) : Nat :=
  Config.daySeconds * ruleDay r year + 3600 * r.hour

/-- Whether daylight saving is in force at an instant (R61). -/
def inForce (rules : DstRules) (t : Nat) : Bool :=
  let year := yearOfDay (dayNumber t)
  let s := ruleInstant rules.start year
  let e := ruleInstant rules.stop year
  rules.enabled &&
    (if s < e then decide (s ≤ t ∧ t < e)
     else if e < s then decide (s ≤ t ∨ t < e)
     else false)

/-- Local time at an instant (R61). -/
def localTime (rules : DstRules) (t : Nat) : Nat := if inForce rules t then t + 3600 else t

/-- The daylight-saving state TIME_GET reports (R58, coded as section 10.5 states). -/
def dstStateCode (rules : DstRules) (t : Nat) : Nat :=
  if rules.enabled then (if inForce rules t then 2 else 1) else 0

/-- The ranges of a daylight-saving rule (R59). -/
def ruleInRange (r : DstRule) : Bool :=
  decide (1 ≤ r.month ∧ r.month ≤ 12 ∧ 1 ≤ r.week ∧ r.week ≤ 5 ∧ r.weekday ≤ 6 ∧ r.hour ≤ 23)

end Sys2Proof.Machine
end

