-- ==== Sys2Proof/Machine/Planning.lean ====
section
/-!
DEFINITION. The night plan (R63, R64) and the nights that an instant names (R75, R76).
-/

namespace Sys2Proof.Machine

/-- The offset f of night d, in intervals: 4 when daylight saving is in force at noon of d (R63). -/
def nightOffset (rules : DstRules) (d : Nat) : Nat :=
  if inForce rules (Config.daySeconds * d + 43200) then 4 else 0

/-- The window start W of night d, an absolute interval (R63). -/
def windowStartOf (night : NightParams) (rules : DstRules) (d : Nat) : Nat :=
  (if 72 ≤ night.start then 96 * d + night.start else 96 * (d + 1) + night.start) -
    nightOffset rules d

/-- The night plan of night d (R63). -/
def planFor (night : NightParams) (rules : DstRules) (d : Nat) : NightPlan :=
  let w := windowStartOf night rules d
  { date := d, offset := nightOffset rules d, window := w, length := night.length,
    graceEnd := w + night.length + night.grace }

/-- The instant a window starts. -/
def NightPlan.startsAt (p : NightPlan) : Nat := Config.intervalSeconds * p.window

/-- The instant a window ends. -/
def NightPlan.endsAt (p : NightPlan) : Nat := Config.intervalSeconds * (p.window + p.length)

/-- The instant of the grace end. -/
def NightPlan.closesAt (p : NightPlan) : Nat := Config.intervalSeconds * p.graceEnd

/-- Night d is planned only when its grace end lies at or before 2099-12-31 23:00:00 (R64). -/
def planNight (night : NightParams) (rules : DstRules) (d : Nat) : Option NightPlan :=
  let p := planFor night rules d
  if p.closesAt ≤ Config.lastGraceEnd then some p else none

/-- The nights whose span can touch an instant, in increasing order. Night dates are day numbers, so none
comes before night 0 (R64; log 7). -/
def nightsNear (t : Nat) : List Nat :=
  [dayNumber t - 2, dayNumber t - 1, dayNumber t, dayNumber t + 1]

/-- The earliest night whose window end lies after t (R75). -/
def firstUnended (night : NightParams) (rules : DstRules) (t : Nat) : Option Nat :=
  (nightsNear t).find? (fun d => decide (t < (planFor night rules d).endsAt))

/-- The earliest night whose window start lies after t (R76). -/
def firstUnopened (night : NightParams) (rules : DstRules) (t : Nat) : Option Nat :=
  (nightsNear t).find? (fun d => decide (t < (planFor night rules d).startsAt))

/-- The night whose span, from window start up to grace end, contains t (R76). -/
def nightSpanning (night : NightParams) (rules : DstRules) (t : Nat) : Option Nat :=
  (nightsNear t).find? (fun d =>
    decide ((planFor night rules d).startsAt ≤ t ∧ t < (planFor night rules d).closesAt))

/-- The earliest night from d on that is none of a list of nights: of one night more than the list holds, some one is
none of them. -/
def firstOutside (nights : List Nat) (d : Nat) : Nat :=
  ((List.range' d (nights.length + 1)).find? (fun k => decide (k ∉ nights))).getD d

/-- The closed window of a plan (R66). -/
def NightPlan.closedWindow (p : NightPlan) : ClosedWindow := ⟨p.date, p.window, p.length⟩

/-- The window of the latest night whose grace end lies at or before t, if any (R75). -/
def closedAt (night : NightParams) (rules : DstRules) (t : Nat) : Option ClosedWindow :=
  ((nightsNear t).reverse.find? (fun d => decide ((planFor night rules d).closesAt ≤ t))).map
    (fun d => (planFor night rules d).closedWindow)

/-- Night d under the active set and the rules of a state (R63, R64). -/
def State.plan (s : State) (d : Nat) : Option NightPlan :=
  planNight s.config.active.night s.calendar.rules d

/-- In DAY the planned night is re-planned for the same night date (R65). -/
def replan (s : State) : State :=
  match s.calendar.cycle with
  | .day (some p) => s.setCalendar { s.calendar with cycle := .day (s.plan p.date) }
  | .day none | .halted | .opened _ | .grace _ | .settling _ => s

end Sys2Proof.Machine
end

