-- ==== Sys2Proof/Machine/Operands.lean ====
section
/-!
DEFINITION. The operand forms of the requests and the layouts of the responses (section 10.5): reading
fields from octets and laying fields out, most significant octet first.
-/

namespace Sys2Proof.Machine

/-! ### Fields -/

/-- The octet of a number. -/
def oct (n : Nat) : Octet := BitVec.ofNat 8 n

/-- A one-octet mark: 1 set, 0 clear. -/
def octFlag (b : Bool) : Octet := if b then 1 else 0

/-- A 16-bit field. -/
def be16 (n : Nat) : List Octet := [oct (n / 256), oct n]

/-- A 32-bit field. -/
def be32 (n : Nat) : List Octet := [oct (n / 16777216), oct (n / 65536), oct (n / 256), oct n]

/-- A signed 32-bit field. -/
def beInt32 (i : Int) : List Octet := be32 (i % 4294967296).toNat

/-- A field that lays out an absent value as a given octet pattern. -/
def orAbsent {α : Type} (absent : List Octet) (f : α → List Octet) : Option α → List Octet
  | none => absent
  | some x => f x

/-- The number of a 16-bit field. -/
def u16 (h l : Octet) : Nat := h.toNat * 256 + l.toNat

/-- The number of a 32-bit field. -/
def u32 (o3 o2 o1 o0 : Octet) : Nat :=
  o3.toNat * 16777216 + o2.toNat * 65536 + o1.toNat * 256 + o0.toNat

/-- The 16-bit fields that a list of octets holds. -/
def words16 : List Octet → List Nat
  | h :: l :: rest => u16 h l :: words16 rest
  | _ => []

/-! ### Terms, meters, districts -/

/-- The litres of one pulse for a weight code (R2). -/
def pulseLitres : Nat → Nat
  | 0 => 1
  | 1 => 2
  | 2 => 5
  | 3 => 10
  | 4 => 20
  | 5 => 50
  | _ => 100

/-- The term code of a term (R29). -/
def termCode (x : Term) : Nat :=
  x.meter * 2 + (match x.sign with
    | .inlet => 0
    | .outlet => 1)

/-- The term of a term code (R29). -/
def termOfCode (code : Nat) : Term := ⟨code / 2, if code % 2 = 0 then .inlet else .outlet⟩

/-- The kind code of a meter (section 10.5). -/
def kindCode : MeterKind → Nat
  | .flow _ => 0
  | .pressure => 1

/-- The weight code field; 0xFF marks the weight of a PRESSURE meter as not held (R38). -/
def weightField : MeterKind → Nat
  | .flow w => w
  | .pressure => 0xFF

/-- A meter entry laid out as the EDIT_METER request. -/
def layMeter (i : Nat) (e : MeterEntry) : List Octet :=
  be16 i ++ be16 e.address ++ [oct (kindCode e.kind), oct (weightField e.kind)] ++ be16 e.maximum ++
    [octFlag e.infill]

/-- A district entry laid out as the EDIT_DMA request. -/
def layDistrict (d : Nat) (e : DistrictEntry) : List Octet :=
  [oct d] ++ be16 e.code ++ [oct e.terms.length] ++ e.terms.flatMap (fun x => be16 (termCode x)) ++
    be16 e.properties ++ [oct e.perProperty] ++ be32 e.nonHousehold ++
    orAbsent (be16 0xFFFF) be16 e.pressurePoint ++ be16 e.refPressure ++
    [oct e.exponent, oct e.minCoverage] ++ be32 e.absThreshold ++
    [oct e.relThreshold, oct e.confirmNights, oct e.clearNights, oct e.learnNights, oct e.shift] ++
    be32 e.burstThreshold

/-- The night parameters laid out as the EDIT_NIGHT request. -/
def layNight (n : NightParams) : List Octet := [oct n.start, oct n.length, oct n.grace]

/-- Reads the six entry fields of an EDIT_METER request, or none when a range fails (R38). -/
def readMeter (address kind weight maximum infill : Nat) : Option MeterEntry :=
  if address = 0 ∨ address = 65535 then none
  else
    let k : Option MeterKind :=
      if kind = 0 then (if weight ≤ 6 then some (.flow weight) else none)
      else if kind = 1 then (if weight = 0xFF then some .pressure else none)
      else none
    match k with
    | none => none
    | some (.flow w) =>
      if maximum = 0 ∨ maximum = 65535 ∨ infill > 1 then none
      else some ⟨address, .flow w, maximum, decide (infill = 1)⟩
    | some .pressure =>
      if maximum = 0 ∨ maximum > 2000 ∨ infill > 1 then none
      else some ⟨address, .pressure, maximum, decide (infill = 1)⟩

/-- The range checks of an EDIT_DMA request's entry (R40); the term list is checked by its codes. -/
def districtInRange (e : DistrictEntry) : Bool :=
  decide (e.nonHousehold ≤ 1000000 ∧ (∀ m ∈ e.pressurePoint, m ≤ 255) ∧
    1 ≤ e.refPressure ∧ e.refPressure ≤ 2000 ∧ e.exponent ≤ 4 ∧
    1 ≤ e.minCoverage ∧ e.minCoverage ≤ 21 ∧ e.absThreshold ≤ 1000000 ∧
    1 ≤ e.confirmNights ∧ e.confirmNights ≤ 7 ∧ 1 ≤ e.clearNights ∧ e.clearNights ≤ 15 ∧
    1 ≤ e.learnNights ∧ e.learnNights ≤ 15 ∧ 1 ≤ e.shift ∧ e.shift ≤ 6 ∧
    e.burstThreshold ≤ 10000000)

/-- The pressure point field: 0xFFFF marks it absent (R40). -/
def readPressurePoint (n : Nat) : Option Nat := if n = 0xFFFF then none else some n

/-- Reads an EDIT_DMA request: none for FORMAT, else the index, the term codes and the entry (R40). -/
def readDistrict (payload : List Octet) : Option (Nat × List Nat × DistrictEntry) :=
  match payload with
  | d :: c1 :: c0 :: n :: rest =>
    if n.toNat < 1 ∨ 8 < n.toNat then none
    else
      let codes := words16 (rest.take (2 * n.toNat))
      match rest.drop (2 * n.toNat) with
      | [p1, p0, a, q3, q2, q1, q0, pp1, pp0, r1, r0, ex, rm, t3, t2, t1, t0, tr, k, m, ln, sh,
          b3, b2, b1, b0] =>
        some (d.toNat, codes,
          { code := u16 c1 c0
            terms := codes.map termOfCode
            properties := u16 p1 p0
            perProperty := a.toNat
            nonHousehold := u32 q3 q2 q1 q0
            pressurePoint := readPressurePoint (u16 pp1 pp0)
            refPressure := u16 r1 r0
            exponent := ex.toNat
            minCoverage := rm.toNat
            absThreshold := u32 t3 t2 t1 t0
            relThreshold := tr.toNat
            confirmNights := k.toNat
            clearNights := m.toNat
            learnNights := ln.toNat
            shift := sh.toNat
            burstThreshold := u32 b3 b2 b1 b0 })
      | _ => none
  | _ => none

/-- The range checks of EDIT_NIGHT (R42). -/
def nightInRange (n : NightParams) : Bool :=
  decide ((n.start ≤ 23 ∨ (72 ≤ n.start ∧ n.start ≤ 95)) ∧ 4 ≤ n.length ∧ n.length ≤ 24 ∧
    n.grace ≤ 16)

/-! ### Other layouts -/

/-- A date and time, laid out as TIME_SET. -/
def layCivil (c : CivilTime) : List Octet :=
  be16 c.year ++ [oct c.month, oct c.day, oct c.hour, oct c.minute, oct c.second]

/-- A suspension entry: meter index, address, until-night, set-by port. -/
def laySuspension (i address : Nat) (x : Suspension) : List Octet :=
  [oct i] ++ be16 address ++ be16 x.untilNight ++ [oct (portCode x.setBy)]

/-- The slot state codes and values (section 10.5). -/
def laySlot : Slot → List Octet
  | .empty => [0] ++ be16 0
  | .filled v => [1] ++ be16 v
  | .conflict => [2] ++ be16 0
  | .estimated v => [3] ++ be16 v

/-- The alarm record present mark, opening night and cause. -/
def layAlarmRecord : Option AlarmRecord → List Octet
  | none => [0, 0, 0, 0]
  | some r => [1] ++ be16 r.night ++ [oct (causeCode r.cause)]

/-- The result codes of the night record. -/
def resultCode : NightResult → Nat
  | .learnt => 0
  | .normal => 1
  | .high => 2
  | .notAssessed => 3

/-- The reason codes of the night record; absent is 0. -/
def reasonCode : Option Reason → Nat
  | none => 0
  | some .disturbed => 1
  | some .suspended => 2
  | some .incomplete => 3

/-- The condition set octet of the night record. -/
def conditionOctet (c : Conditions) : Octet :=
  oct (c.negativeFlow.toNat + 2 * c.belowAllowance.toNat + 4 * c.uncorrected.toNat +
    8 * c.pressureClamped.toNat + 16 * c.infilled.toNat + 32 * c.burst.toNat +
    64 * c.clockStepped.toNat + 128 * c.newConfig.toNat)

/-- A night record, 32 octets. -/
def layRecord (r : NightRecord) : List Octet :=
  be16 r.date ++ be16 r.code ++
    [oct (resultCode r.result), oct (reasonCode r.reason), conditionOctet r.conditions,
      oct r.positions] ++
    orAbsent [0xFF] (fun j => [oct j]) r.minPosition ++
    orAbsent (be32 0x80000000) beInt32 r.mnf ++ be32 r.lnu ++
    orAbsent (be32 0xFFFFFFFF) be32 r.leakage ++ orAbsent (be16 0) be16 r.pavg ++
    orAbsent (be32 0xFFFFFFFF) be32 r.lnorm ++ orAbsent (be32 0xFFFFFFFF) be32 r.baselineAfter ++
    [oct (alarmCode r.alarmAfter)]

/-- An event entry, 12 octets. -/
def layEvent (e : Event) : List Octet :=
  be32 e.serial.toNat ++ [oct (eventCode e.kind), oct e.subject] ++ be16 e.night ++ beInt32 e.detail

end Sys2Proof.Machine
end

