-- ==== Sys2Proof/Machine/Balance.lean ====
section
/-!
DEFINITION. The balance arithmetic that settlement and the burst watch share (R88, R89, R90, R93, R129):
interval volumes, net flows, hour sums, legitimate night use.
-/

namespace Sys2Proof.Machine

/-- The value of a slot that is available to settlement: FILLED or ESTIMATED (R88). -/
def availableValue : Slot → Option Nat
  | .filled v | .estimated v => some v
  | .empty | .conflict => none

/-- The value of a slot that the burst watch uses: FILLED only (R128). -/
def filledValue : Slot → Option Nat
  | .filled v => some v
  | .empty | .conflict | .estimated _ => none

/-- The pulse weight in litres of a FLOW meter of a set (R2). -/
def meterWeight (meters : Tbl MeterEntry) (m : Nat) : Option Nat :=
  match tget meters m with
  | some e =>
    match e.kind with
    | .flow w => some (pulseLitres w)
    | .pressure => none
  | none => none

/-- The interval volume of a term's slot (R88), by which slot values are usable. -/
def volume (usable : Slot → Option Nat) (meters : Tbl MeterEntry) (store : Tbl Slot) (m k : Nat) :
    Option Nat :=
  match usable (slotAt store m k), meterWeight meters m with
  | some v, some w => some (v * w)
  | _, _ => none

/-- A volume with its term's sign (R89). -/
def signed (x : Sign) (v : Nat) : Int :=
  match x with
  | .inlet => v
  | .outlet => -(v : Int)

/-- The net interval flow N(k) of a term list, defined when every term's slot is usable (R89). -/
def netFlow (usable : Slot → Option Nat) (meters : Tbl MeterEntry) (store : Tbl Slot)
    (terms : List Term) (k : Nat) : Option Int :=
  match terms with
  | [] => some 0
  | x :: rest =>
    match volume usable meters store x.meter k, netFlow usable meters store rest k with
    | some v, some n => some (signed x.sign v + n)
    | _, _ => none

/-- The hour sum H(j), defined when the position is complete (R90). -/
def hourSum (usable : Slot → Option Nat) (meters : Tbl MeterEntry) (store : Tbl Slot)
    (terms : List Term) (j : Nat) : Option Int :=
  let n := netFlow usable meters store terms
  match n j, n (j + 1), n (j + 2), n (j + 3) with
  | some a, some b, some c, some d => some (a + b + c + d)
  | _, _, _, _ => none

/-- The legitimate night use (R93). -/
def lnu (e : DistrictEntry) : Nat := (e.properties * e.perProperty + e.nonHousehold + 5) / 10

/-- Whether a district's term list names a meter. -/
def namesMeter (e : DistrictEntry) (m : Nat) : Bool := e.terms.any (fun x => decide (x.meter = m))

/-- Whether a term meter of a district is suspended tonight (R85, R127). -/
def termSuspended (e : DistrictEntry) (suspended : IdxSet) : Bool :=
  e.terms.any (fun x => hasIdx suspended x.meter)

end Sys2Proof.Machine
end

