-- ==== Sys2Proof/Machine/Burst.lean ====
section
/-!
DEFINITION. The Burst Watch (chapter 6): taking an offer, marking positions, finding a burst; and the entry
of a burst at the District State Table (R112).
-/

namespace Sys2Proof.Machine

/-- The burst marks of a district. -/
def marksOf (b : BurstWatch) (d : Nat) : IdxSet := (tget b.marks d).getD []

/-- Whether a district is watched at an offer (R127), with the baseline it is compared with: none when any
condition of R127 holds. -/
def watchedBaseline (s : State) (d : Nat) (e : DistrictEntry) : Option Nat :=
  match tget s.districts d with
  | none => none
  | some r =>
    if e.burstThreshold = 0 ∨ r.alarm = .learning ∨ r.alarm = .leak ∨ hasIdx s.burst.raised d ∨
        termSuspended e s.intake.suspended ∨ s.calendar.disturbed then none
    else r.baseline

/-- The positions that contain slot k in a window of n intervals (R128). -/
def positionsOf (n k : Nat) : List Nat :=
  (List.range (n - 3)).filter (fun j => decide (j ≤ k ∧ k ≤ j + 3))

/-- Whether an evaluated position is marked: H(j) - (B + LNU) > Tb (R130). -/
def exceeds (e : DistrictEntry) (baseline : Nat) (h : Int) : Bool :=
  decide (h - ((baseline : Int) + (lnu e : Int)) > (e.burstThreshold : Int))

/-- The positions newly marked at an offer of slot k (R128, R130). -/
def newMarks (s : State) (e : DistrictEntry) (baseline n k : Nat) : List Nat :=
  (positionsOf n k).filter (fun j =>
    match hourSum filledValue s.config.active.meters s.intake.store e.terms j with
    | some h => exceeds e baseline h
    | none => false)

/-- A newly marked position has a marked neighbour (R131). -/
def burstFound (fresh : List Nat) (marks : IdxSet) : Bool :=
  fresh.any (fun j => hasIdx marks (j + 1) || (decide (1 ≤ j) && hasIdx marks (j - 1)))

/-- The watch examines one district at an offer of slot k, the night's plan being p (R127 to R131). -/
def examine (p : NightPlan) (k : Nat) (s : State) (place : Nat × DistrictEntry) : State :=
  match watchedBaseline s place.1 place.2 with
  | none => s
  | some b =>
    let fresh := newMarks s place.2 b p.length k
    let marks := fresh.foldl insertIdx (marksOf s.burst place.1)
    if fresh = [] then s
    else if burstFound fresh marks then
      s.setBurst
        { marks := tput s.burst.marks place.1 marks
          raised := insertIdx s.burst.raised place.1
          held := tput s.burst.held place.1 p.date }
    else s.setBurst { s.burst with marks := tput s.burst.marks place.1 marks }

/-- An offer of slot k of meter m: every district of the active set whose terms name m is examined
(R126). -/
def takeOffer (p : NightPlan) (m k : Nat) (s : State) : State :=
  (s.config.active.districts.filter (fun place => namesMeter place.2 m)).foldl (examine p k) s

/-- The entry of a night clears the burst marks and the burst-raised marks (R125). -/
def clearBurst (b : BurstWatch) : BurstWatch := { b with marks := [], raised := [] }

/-- A district's runtime after a burst entry, with the cause of the LEAK_RAISED event, if any (R112). -/
def raiseBurst (night : Nat) (r : DistrictRuntime) : DistrictRuntime × Option Cause :=
  match r.alarm with
  | .quiet | .watch =>
    ({ r with alarm := .leak, record := some ⟨night, .burst⟩, learnCount := 0, highCount := 0,
              normalCount := 0 }, some .burst)
  | .standing =>
    ({ r with alarm := .leak, record := some ⟨night, .burstOnStanding⟩, normalCount := 0 },
      some .burstOnStanding)
  | .leak | .learning => (r, none)

/-- The District State Table takes a burst entry for district d naming a night (R112). -/
def enterBurst (d night : Nat) (s : State) : State :=
  match tget s.districts d with
  | none => s
  | some r =>
    match raiseBurst night r with
    | (_, none) => s
    | (r', some cause) =>
      (s.setDistricts (tput s.districts d r')).append .leakRaised d night (causeCode cause)

/-- The Burst Watch no longer holds a district's entry (R131). -/
def dropHeld (d : Nat) (s : State) : State :=
  s.setBurst { s.burst with held := tdel s.burst.held d }

/-- The held entry of district d is taken (R112, R124). -/
def takeHeld (d : Nat) (s : State) : State :=
  match tget s.burst.held d with
  | none => s
  | some night => enterBurst d night (dropHeld d s)

/-- District d's place among held entries, in rising rank. -/
def placeHeld (rank : Nat → Nat) (d : Nat) : List Nat → List Nat
  | [] => [d]
  | x :: rest => if rank d ≤ rank x then d :: x :: rest else x :: placeHeld rank d rest

/-- The districts that hold an entry, in the order in which a grace end takes them: a free value, drawn anew at
each instant and next serial (log 9). -/
def heldOrder (s : State) : List Nat :=
  (tkeys s.burst.held).foldr (placeHeld (Config.heldRank s.calendar.t s.events.next.toNat)) []

/-- At grace end every entry still held is taken (R70, R131), in an order the manual leaves open (log 9). -/
def takeAllHeld (s : State) : State := (heldOrder s).foldl (fun r d => takeHeld d r) s

end Sys2Proof.Machine
end

