-- ==== Sys2Proof/Machine/Flags.lean ====
section
/-!
DEFINITION. The attention flags and lines (R168, R169): the sticky flags are read from the port, the level
flags and the line are computed from the state they follow (log 19).
-/

namespace Sys2Proof.Machine

/-- EVT: the port has one or more unread entries (R168). -/
def evtFlag (s : State) (p : Port) : Bool := decide (0 < s.events.unread p)

/-- Whether a runtime is in LEAK. -/
def inLeak (r : DistrictRuntime) : Bool := decide (r.alarm = .leak)

/-- LEAK: some district of the active set is in LEAK; the same on all three ports (R168). -/
def leakFlag (s : State) : Bool := s.districts.any (fun e => inLeak e.2)

/-- TIME: the calendar is INVALID (R168). -/
def timeFlag (s : State) : Bool := !s.calendar.valid

/-- The five flags of a port: bit 0 EVT, 1 LOST, 2 LEAK, 3 LINK, 4 TIME (section 10.4). -/
def flagOctet (s : State) (p : Port) : Octet :=
  oct ((evtFlag s p).toNat + 2 * (s.port p).lost.toNat + 4 * (leakFlag s).toNat +
    8 * (s.port p).link.toNat + 16 * (timeFlag s).toNat)

/-- The mask of a port, as FLAG_MASK carries it. -/
def maskOctet (s : State) (p : Port) : Octet := oct (s.port p).mask.toNat

/-- Whether a flag drives the line: it is set and its mask bit is clear (R168). -/
def drives (flag : Bool) (mask : Mask) (bit : Nat) : Bool := flag && !mask.getLsbD bit

/-- The attention line of a port, asserted while TIME or an unmasked flag is set (R169). While main power
is absent no flag is set by the part and the line is not asserted. -/
def attentionLine (s : State) (p : Port) : Bool :=
  s.retention.powered &&
    (timeFlag s || drives (evtFlag s p) (s.port p).mask 0 || drives (s.port p).lost (s.port p).mask 1 ||
      drives (leakFlag s) (s.port p).mask 2 || drives (s.port p).link (s.port p).mask 3)

/-- The answer of FLAG_CLEAR and FLAG_MASK: flags, mask, lost count (R169). -/
def layFlags (s : State) (p : Port) : List Octet :=
  [flagOctet s p, maskOctet s p, oct (s.port p).lostCount]

end Sys2Proof.Machine
end

