-- ==== Sys2Proof/Machine/Link.lean ====
section
/-!
DEFINITION. The link ports (chapter 9): characters, frames and their CRC, the request queue, responses,
port C's echo check, the application of port settings; and the Request Service's taking of a frame
(chapter 10), which every request's meaning is one call of.
-/

namespace Sys2Proof.Machine

/-! ### CRC (R159) -/

/-- One bit into the CRC register. -/
def crcBit (reg : Crc) (bit : Bool) : Crc :=
  if reg.msb ≠ bit then (reg <<< 1) ^^^ Config.crcPoly else reg <<< 1

/-- One octet into the CRC register, most significant bit first. -/
def crcOctet (reg : Crc) (o : Octet) : Crc :=
  [7, 6, 5, 4, 3, 2, 1, 0].foldl (fun r i => crcBit r (o.getLsbD i)) reg

/-- The CRC of a list of octets. -/
def crc (os : List Octet) : Crc := os.foldl crcOctet Config.crcStart

/-- The two CRC octets, high octet first. -/
def crcOctets (os : List Octet) : List Octet := be16 (crc os).toNat

/-- The octets of a response on the line (R161). -/
def Response.octets (r : Response) : List Octet :=
  let body := [r.addr, r.kind, r.tag, oct (statusCode r.status)] ++ r.payload
  body ++ crcOctets body

/-- The octets of a request frame on the line (section 10.5). -/
def Frame.octets (f : Frame) : List Octet :=
  let body := [f.addr, f.kind, f.tag] ++ f.payload
  body ++ crcOctets body

/-! ### Characters (R158) -/

/-- Sample i (1..16) of bit b (0 start, 1..8 data, 9 stop). -/
def sample (x : Samples) (b i : Nat) : Bool := x.getLsbD (16 * b + i - 1)

/-- At least two of three samples read 1. -/
def majority (x y z : Bool) : Bool := (x && y) || (x && z) || (y && z)

/-- The three samples do not all agree. -/
def disagree (x y z : Bool) : Bool := !(x == y && y == z)

/-- The start is confirmed when at least two of samples 4, 6 and 8 read 0. -/
def startConfirmed (x : Samples) : Bool :=
  !majority (sample x 0 4) (sample x 0 6) (sample x 0 8)

/-- The value a bit takes: the majority of samples 7, 8 and 9. -/
def bitValue (x : Samples) (b : Nat) : Bool := majority (sample x b 7) (sample x b 8) (sample x b 9)

/-- Whether a data bit or the stop bit of the character has disagreeing samples. -/
def noisy (x : Samples) : Bool :=
  [1, 2, 3, 4, 5, 6, 7, 8, 9].any (fun b => disagree (sample x b 7) (sample x b 8) (sample x b 9))

/-- The octet of a character, least significant bit first. -/
def charOctet (x : Samples) : Octet :=
  oct ([7, 6, 5, 4, 3, 2, 1, 0].foldl (fun n i => 2 * n + (bitValue x (i + 1)).toNat) 0)

/-- The stop bit is taken as 1. -/
def stopGood (x : Samples) : Bool := bitValue x 9

/-- A frame with nothing in it yet. -/
def RxFrame.fresh : RxFrame := ⟨[], false, false⟩

/-- A good character joins the frame; past 256 octets nothing more is stored (R159). -/
def RxFrame.take (f : RxFrame) (o : Octet) : RxFrame :=
  if f.octets.length < Config.frameOctets then { f with octets := f.octets ++ [o] }
  else { f with overlong := true }

/-- A framing error condemns the frame (R158). -/
def RxFrame.condemn (f : RxFrame) : RxFrame := { f with condemned := true }

/-- A character whose start was confirmed reaches a receiver that searches (R158; log 14). With no frame being assembled it
begins one, whether or not the line had been idle for 20 bit-times before it (R159; log 41). -/
def PortState.receive (x : PortState) (c : Samples) : PortState :=
  let y := if noisy c then x.countNoise else x
  let f := y.receiver.frame.getD .fresh
  let g := if stopGood c then f.take (charOctet c) else f.condemn
  { y with receiver := ⟨some g, false⟩ }

/-- A receiver that waited for the idle line searches again (R158, R162, R163, R164). -/
def PortState.endWait (x : PortState) : PortState :=
  { x with receiver := { x.receiver with waitIdle := false } }

/-! ### Responses and echo (R161, R162) -/

/-- Once a response has finished on port B, stored settings that waited for it are ready (R164). -/
def PortState.responseDone (x : PortState) : PortState :=
  if x.change = .awaiting then { x with change := .ready } else x

/-- The end of whatever port p was sending (sent, abandoned or dropped). -/
def State.transmitterFree (s : State) (p : Port) : State :=
  let r := s.setPort p { s.port p with transmitter := none }
  if p = .b then r.setPorts (r.ports.map PortState.responseDone) else r

/-- Port C abandons its response at an echo mismatch (R162). -/
def State.abandonEcho (s : State) : State :=
  let r := s.transmitterFree .c
  let x := r.port .c
  r.setPort .c
    { x with
      bitError := countUp Config.countMax x.bitError
      link := true
      receiver := ⟨x.receiver.frame, true⟩ }

/-- Port C reads back one character while it transmits (R162; log 15). -/
def State.echo (s : State) (tx : Transmission) (c : Samples) : State :=
  let x := s.port .c
  let s1 := if noisy c then s.setPort .c x.countNoise else s
  match tx.response.octets[tx.echoed]? with
  | none => s1
  | some o =>
    if stopGood c && decide (charOctet c = o) then
      s1.setPort .c { s1.port .c with transmitter := some { tx with echoed := tx.echoed + 1 } }
    else s1.abandonEcho

/-! ### Port settings (R164) -/

/-- The line adopts the stored settings; a frame being assembled is dropped without count, and the
receiver waits for idle (R164). -/
def PortState.applySettings (x : PortState) : PortState :=
  { x with line := x.settings, change := .settled, receiver := ⟨none, true⟩ }

/-- The port as any event of it finds it once both conditions of R164 hold, the PARAM_SET response over and the port not
transmitting: its line has adopted the stored settings at that moment, whether PORT_SETTINGS_APPLIED has been taken or
not (log 17). -/
def PortState.adoptDue (x : PortState) : PortState :=
  if x.change = .ready ∧ x.transmitter = none then x.applySettings else x

/-- Stored settings wait for the PARAM_SET response; a change that was due has been made before (R164; log 17). -/
def PortState.storeSettings (x : PortState) (v : PortSettings) : PortState :=
  { x.adoptDue with settings := v, change := .awaiting }

/-- Port p with a change of its settings made that is due (R164). -/
def State.adoptDue (s : State) (p : Port) : State := s.setPort p (s.port p).adoptDue

/-! ### Characters at a port -/

/-- A fall of port p's receive line and the samples that follow (R158, R162). A line that had been idle ends a receiver's
wait for it, at a false start and on port C's own transmission too; then a false start records nothing, port C reads back
what it transmits, and a receiver that searches takes the character. -/
def State.character (s : State) (p : Port) (idle : Bool) (c : Samples) : State :=
  let s1 := s.adoptDue p
  let r := if idle then s1.setPort p (s1.port p).endWait else s1
  if startConfirmed c then
    match p, (r.port p).transmitter with
    | .c, some tx => r.echo tx c
    | _, _ => if (r.port p).receiver.waitIdle then r else r.setPort p ((r.port p).receive c)
  else r

/-! ### Frames (R159, R160) -/

/-- How a frame is judged at its end (R159). -/
inductive FrameFate where
  | discarded
  | ignored
  | accepted (f : Frame)
  deriving DecidableEq, Repr

/-- The request frame that a good frame's octets spell. -/
def frameOf (os : List Octet) : Frame :=
  { addr := os.getD 0 0, kind := os.getD 1 0, tag := os.getD 2 0,
    payload := (os.take (os.length - 2)).drop 3 }

/-- The judgement of a frame, its outcomes in the order of R159. -/
def judgeFrame (unitAddr : Octet) (f : RxFrame) : FrameFate :=
  if f.condemned then .discarded
  else if f.overlong then .discarded
  else if f.octets.length < 5 then .discarded
  else if f.octets.getD 0 0 ≠ unitAddr ∧ f.octets.getD 0 0 ≠ Config.broadcast then .ignored
  else if f.octets.drop (f.octets.length - 2) ≠ crcOctets (f.octets.take (f.octets.length - 2)) then
    .discarded
  else .accepted (frameOf f.octets)

/-- An accepted frame joins the queue, or is an overrun (R160). -/
def PortState.offer (x : PortState) (f : Frame) : PortState :=
  if x.queue.length < Config.queueCapacity then { x with queue := x.queue ++ [f] }
  else x.countDiscard

/-- 20 bit-times of idle at a port: the frame being assembled, if any, is judged, and a receiver that
waited for the idle line searches again (R159; log 13). -/
def PortState.lineIdle (x : PortState) : PortState :=
  let y := { x with receiver := ⟨none, false⟩ }
  match x.receiver.frame with
  | none => y
  | some f =>
    match judgeFrame x.line.unitAddr f with
    | .discarded => y.countDiscard
    | .ignored => y
    | .accepted g => y.offer g

/-- The end of a frame on port p (R159). Port C transmitting keeps its own line busy (R162). -/
def State.endFrame (s : State) (p : Port) : State :=
  match p, (s.port p).transmitter with
  | .c, some _ => s
  | _, _ => s.setPort p (s.port p).adoptDue.lineIdle

/-! ### The Request Service (R160, R161, R165) -/

/-- An owner's answer: a status and a payload. -/
structure Answer where
  status : Status
  payload : List Octet
  deriving DecidableEq, Repr

/-- A refusal for which the owner states no payload. -/
def refusal (x : Status) : Answer := ⟨x, []⟩

/-- The request kinds of section 10.2 run from 0x01 to 0x1A. -/
def knownKind (k : Octet) : Bool := decide (1 ≤ k.toNat ∧ k.toNat ≤ 0x1A)

/-- The roles of section 10.2: which ports may send a kind. -/
def inRole (k : Octet) (p : Port) : Bool :=
  match p with
  | .b => true
  | .a => decide (k.toNat ∈ [0x01, 0x03, 0x0C, 0x0F, 0x13, 0x14, 0x15, 0x16, 0x17, 0x18, 0x1A])
  | .c => decide (k.toNat ∈ [0x03, 0x04, 0x05, 0x06, 0x07, 0x08, 0x09, 0x0A, 0x0B, 0x0C, 0x0D, 0x0E,
      0x0F, 0x10, 0x13, 0x14, 0x15, 0x16, 0x17, 0x18, 0x1A])

/-- A broadcast has an effect only when it is a TIME_SET taken on port B (R165). -/
def broadcastActs (k : Octet) (p : Port) : Bool := decide (k.toNat = 0x02 ∧ p = .b)

/-- How a block serves a request: the port that carried it and the payload, in a state. -/
abbrev Owner := Port → List Octet → State → State × Answer

/-- The Request Service's two checks, then the owner (R165). -/
def checked (owner : Owner) (p : Port) (f : Frame) (s : State) : State × Answer :=
  if !knownKind f.kind then (s, refusal .format)
  else if !inRole f.kind p then (s, refusal .role)
  else owner p f.payload s

/-- The transmitter begins a response; port C drops the frame it is assembling (R161, R162). -/
def PortState.respond (x : PortState) (p : Port) (r : Response) : PortState :=
  { x with
    transmitter := some ⟨r, 0⟩
    receiver := if p = .c then ⟨none, x.receiver.waitIdle⟩ else x.receiver }

/-- The response to a frame: the unit address as it stood when the frame was taken (log 16), the kind with
its top bit set, the tag, the owner's answer (R161). -/
def responseTo (unitAddr : Octet) (f : Frame) (x : Answer) : Response :=
  ⟨unitAddr, f.kind ||| 0x80, f.tag, x.status, x.payload⟩

/-- The serving of a taken frame (R160, R161, R165): a broadcast forms no response. -/
def serveFrame (owner : Owner) (p : Port) (f : Frame) (s : State) : State :=
  if f.addr = Config.broadcast then
    (if broadcastActs f.kind p then (owner p f.payload s).1 else s)
  else
    let r := checked owner p f s
    r.1.setPort p ((r.1.port p).respond p (responseTo (s.port p).settings.unitAddr f r.2))

/-- The oldest waiting frame of port p, when the port may take it: main power is present and no response of
the port is being sent (R160). -/
def waitingFrame (s : State) (p : Port) : Option Frame :=
  if s.retention.powered then
    match (s.port p).transmitter with
    | some _ => none
    | none => (s.port p).queue.head?
  else none

/-- Takes the oldest waiting frame of port p off its queue (R160), a change of the port's settings that is due made
before, so that its response is sent at the new rate (R164). -/
def State.takeFrame (s : State) (p : Port) : State :=
  s.setPort p { (s.port p).adoptDue with queue := (s.port p).queue.tail }

/-- The taking of a request: the oldest waiting frame of port p, when it is one of `mine`, is taken and
served; otherwise the event is not due and nothing happens (R160, R165; log 1). -/
def serve (mine : Frame → Bool) (owner : Owner) (p : Port) (s : State) : State :=
  match waitingFrame s p with
  | none => s
  | some f => if mine f then serveFrame owner p f (s.takeFrame p) else s

/-- A frame of a request kind. -/
def ofKind (k : Nat) (f : Frame) : Bool := decide (f.kind.toNat = k)

end Sys2Proof.Machine
end

