-- ==== Sys2Proof/Machine/Intake.lean ====
section
/-!
DEFINITION. Reading Intake (chapter 1): the judging and filing of a reading batch, METER_STATUS, the nightly
state at the edges of the night.
-/

namespace Sys2Proof.Machine

/-! ### One value of a batch (R11 to R20) -/

/-- The nine outcomes of a value, in the order of R21's counts. -/
inductive Fate where
  | accepted
  | duplicate
  | conflicted
  | gap
  | future
  | late
  | outside
  | suspended
  | range
  deriving DecidableEq, Repr

/-- The slot and the outcome of filing a value (R17). No slot is ESTIMATED when a reading is filed (R7). -/
def fileValue (slot : Slot) (v : Nat) : Slot × Fate :=
  match slot with
  | .empty => (.filled v, .accepted)
  | .filled w => if w = v then (.filled w, .duplicate) else (.conflict, .conflicted)
  | .conflict => (.conflict, .conflicted)
  | .estimated w => (.estimated w, .conflicted)

/-- LATE or OUTSIDE, for a value not in a current window (R14). -/
def lateOrOutside (closed : Option ClosedWindow) (x : Nat) : Fate :=
  match closed with
  | none => .outside
  | some w => if w.window ≤ x ∧ x < w.window + w.length then .late else .outside

/-- Whether an interval lies in a plan's window (R14). -/
def inWindow (p : NightPlan) (x : Nat) : Bool := decide (p.window ≤ x ∧ x < p.window + p.length)

/-- The outcome of a value v of meter m for absolute interval x, with the plan of the current window when
the value reaches a slot test (R11). -/
def judgeValue (s : State) (m : Nat) (e : MeterEntry) (x v : Nat) : Fate :=
  if v = 0xFFFF then .gap
  else if s.calendar.t < Config.intervalSeconds * (x + 1) then .future
  else
    match filingPlan s.calendar.cycle with
    | none => lateOrOutside s.calendar.closed x
    | some p =>
      if !inWindow p x then lateOrOutside s.calendar.closed x
      else if hasIdx s.intake.suspended m then .suspended
      else if e.maximum < v then .range
      else (fileValue (slotAt s.intake.store m (x - p.window)) v).2

/-- Whether an outcome counts as hearing the meter (R19). -/
def Fate.hears : Fate → Bool
  | .accepted | .duplicate | .conflicted | .range => true
  | .gap | .future | .late | .outside | .suspended => false

/-- The runtime a meter holds; an entry without one is read as initial (R5). -/
def MeterRuntime.initial : MeterRuntime := ⟨.active, 0⟩

/-- The runtime of meter m. -/
def runtimeOf (x : Intake) (m : Nat) : MeterRuntime := (tget x.runtime m).getD .initial

/-- The meter is heard: its mark is set; a SILENT meter becomes ACTIVE with METER_HEARD (R19). -/
def hear (p : Port) (m : Nat) (s : State) : State :=
  let s1 := s.setIntake { s.intake with heard := insertIdx s.intake.heard m }
  let r := runtimeOf s.intake m
  match r.condition with
  | .active => s1
  | .silent =>
    (s1.setIntake
      { s1.intake with runtime := tput s1.intake.runtime m { r with condition := .active } }).append
      .meterHeard m (eventNight s) (portCode p)

/-- The first out-of-range value of the night is reported (R16). -/
def reportRange (m v : Nat) (s : State) : State :=
  if hasIdx s.intake.rangeReported m then s
  else
    (s.setIntake { s.intake with rangeReported := insertIdx s.intake.rangeReported m }).append
      .meterRange m (eventNight s) v

/-- A value is filed in slot k of meter m's row (R17). -/
def fileSlot (m k v : Nat) (s : State) : State :=
  s.setIntake
    { s.intake with
      store := putSlot s.intake.store m k (fileValue (slotAt s.intake.store m k) v).1 }

/-- A newly FILLED slot of a FLOW meter is offered to the burst watch (R20). -/
def offerSlot (p : NightPlan) (m k : Nat) (e : MeterEntry) (s : State) : State :=
  match e.kind with
  | .flow _ => takeOffer p m k s
  | .pressure => s

/-- What an outcome does (R16, R17, R19, R20). -/
def applyFate (port : Port) (m : Nat) (e : MeterEntry) (x v : Nat) (f : Fate) (s : State) : State :=
  if f.hears then
    let s1 := hear port m s
    match f, filingPlan s.calendar.cycle with
    | .range, _ => reportRange m v s1
    | .accepted, some p => offerSlot p m (x - p.window) e (fileSlot m (x - p.window) v s1)
    | _, some p => fileSlot m (x - p.window) v s1
    | _, none => s1
  else s

/-- The values of a batch from absolute interval x on are judged and take effect in order; their outcomes
(R11). -/
def takeValues (port : Port) (m : Nat) (e : MeterEntry) (x : Nat) (vs : List Nat) (s : State) :
    State × List Fate :=
  match vs with
  | [] => (s, [])
  | v :: rest =>
    let f := judgeValue s m e x v
    let r := takeValues port m e (x + 1) rest (applyFate port m e x v f s)
    (r.1, f :: r.2)

/-- The nine counts of R21. -/
def countFates (fs : List Fate) : List Octet :=
  [Fate.accepted, .duplicate, .conflicted, .gap, .future, .late, .outside, .suspended, .range].map
    (fun f => oct (fs.count f))

/-- The current night's present mark and date (R21). -/
def layCurrentNight (c : NightCycle) : List Octet :=
  match currentPlan c with
  | some p => [1] ++ be16 p.date
  | none => [0] ++ be16 0

/-- The meter of a set that holds an address (R1). -/
def meterAt (meters : Tbl MeterEntry) (address : Nat) : Option (Nat × MeterEntry) :=
  meters.find? (fun e => decide (e.2.address = address))

/-- READINGS at Reading Intake (R8 to R21). The checks stand in R9's order, NO_TIME before UNKNOWN_METER, after a LAPSED
power-up too (log 42). -/
def ownReadings : Owner := fun p payload s =>
  match payload with
  | a1 :: a0 :: d1 :: d0 :: first :: c :: values =>
    if c.toNat = 0 ∨ 24 < c.toNat ∨ values.length ≠ 2 * c.toNat then (s, refusal .format)
    else if Config.lastDay < u16 d1 d0 ∨ 95 < first.toNat then (s, refusal .range)
    else if !s.calendar.valid then (s, refusal .noTime)
    else
      match meterAt s.config.active.meters (u16 a1 a0) with
      | none => (s, refusal .unknownMeter)
      | some (m, e) =>
        let r := takeValues p m e (u16 d1 d0 * 96 + first.toNat) (words16 values) s
        (r.1, ⟨.ok, countFates r.2 ++ layCurrentNight s.calendar.cycle⟩)
  | _ => (s, refusal .format)

/-! ### METER_STATUS (R27) -/

/-- The slots METER_STATUS carries: n in OPEN, GRACE and SETTLING, none in DAY and HALTED. -/
def statusSlots (s : State) (m : Nat) : List Slot :=
  match currentPlan s.calendar.cycle with
  | some p => (List.range p.length).map (slotAt s.intake.store m)
  | none => []

/-- The condition code (section 10.5). -/
def conditionCode : Condition → Nat
  | .active => 0
  | .silent => 1

/-- The marks octet of METER_STATUS. -/
def marksOctet (x : Intake) (m : Nat) : Octet :=
  oct ((hasIdx x.heard m).toNat + 2 * (hasIdx x.suspended m).toNat +
    4 * (hasIdx x.rangeReported m).toNat)

/-- METER_STATUS at Reading Intake (R27). -/
def ownMeterStatus : Owner := fun _ payload s =>
  match payload with
  | [i1, i0] =>
    let m := u16 i1 i0
    if 255 < m then (s, refusal .range)
    else
      match tget s.config.active.meters m with
      | none => (s, refusal .unknownMeter)
      | some e =>
        let slots := statusSlots s m
        (s, ⟨.ok, be16 e.address ++
          [oct (kindCode e.kind), oct (conditionCode (runtimeOf s.intake m).condition),
            oct (runtimeOf s.intake m).silentNights, marksOctet s.intake m, oct slots.length] ++
          slots.flatMap laySlot⟩)
  | _ => (s, refusal .format)

/-! ### The edges of the night (R22, R23, R24) -/

/-- The nightly state at the entry of a night (R22). -/
def setUpNight (suspended : IdxSet) (x : Intake) : Intake :=
  { x with store := [], heard := [], suspended := suspended, rangeReported := [] }

/-- The store and the nightly marks are cleared (R24). -/
def clearNight (x : Intake) : Intake := setUpNight [] x

/-- A meter's runtime after a settled night on which it was heard or not, and whether METER_SILENT is due
(R23). An unheard meter that stands at 3 silent nights but ACTIVE stays so, without an event (log 34). -/
def advanceMeter (heard : Bool) (r : MeterRuntime) : MeterRuntime × Bool :=
  if heard then (⟨.active, 0⟩, false)
  else if r.silentNights < 3 then
    (if r.silentNights + 1 = 3 then (⟨.silent, 3⟩, true)
     else ({ r with silentNights := r.silentNights + 1 }, false))
  else (r, false)

/-- One meter's history is updated at the settlement end of night d (R23). -/
def updateMeter (d : Nat) (s : State) (m : Nat) : State :=
  let r := advanceMeter (hasIdx s.intake.heard m) (runtimeOf s.intake m)
  let s1 := s.setIntake { s.intake with runtime := tput s.intake.runtime m r.1 }
  if r.2 then s1.append .meterSilent m d 0 else s1

/-- Every meter of the active set is updated, in index order (R23). -/
def updateMeters (d : Nat) (s : State) : State :=
  (tkeys s.config.active.meters).foldl (updateMeter d) s

/-! ### Meters across an installation (R25) -/

/-- Whether a place of two sets holds a meter with the same address. -/
def sameAddress (old new : Tbl MeterEntry) (i : Nat) : Bool :=
  match tget old i, tget new i with
  | some a, some b => decide (a.address = b.address)
  | _, _ => false

/-- The runtime table after an installation (R25). -/
def carryMeters (old new : Tbl MeterEntry) (runtime : Tbl MeterRuntime) : Tbl MeterRuntime :=
  new.map (fun e =>
    (e.1, if sameAddress old new e.1 then (tget runtime e.1).getD .initial else .initial))

end Sys2Proof.Machine
end

