-- ==== Sys2Proof/Machine/Judgement.lean ====
section
/-!
DEFINITION. The District State Table (chapter 5): the judgement of a settled night, LEAK_ACK, REBASE,
RELEARN, DMA_STATUS, NIGHT_READ's ring, and the table across an installation.
-/

namespace Sys2Proof.Machine

/-! ### Judgement (R105 to R111) -/

/-- The initial runtime of a district (R103). -/
def DistrictRuntime.initial : DistrictRuntime :=
  { alarm := .learning, baseline := none, learnCount := 0, highCount := 0, normalCount := 0,
    record := none, lastSettled := none, configMark := true }

/-- The threshold T for a baseline (R106). -/
def threshold (e : DistrictEntry) (baseline : Nat) : Nat :=
  max e.absThreshold (baseline * e.relThreshold / 100)

/-- The excess E (R106). -/
def excess (lnorm baseline : Nat) : Int := (lnorm : Int) - (baseline : Int)

/-- Whether a night is HIGH (R106). -/
def isHigh (e : DistrictEntry) (baseline lnorm : Nat) : Bool :=
  decide (excess lnorm baseline > (threshold e baseline : Int))

/-- The baseline update: B + trunc((Lnorm - B) / 2^s) (R107). -/
def updateBaseline (shift baseline lnorm : Nat) : Nat :=
  ((baseline : Int) + Int.tdiv (excess lnorm baseline) (2 ^ shift : Nat)).toNat

/-- A judgement: the runtime after, the result, and the event it appends, with its detail (R111). -/
structure Judged where
  runtime : DistrictRuntime
  result : NightResult
  event : Option (EventKind × Int)
  deriving DecidableEq, Repr

/-- The judgement of a LEARNING district (R108). -/
def judgeLearning (e : DistrictEntry) (lnorm : Nat) (r : DistrictRuntime) : Judged :=
  let b := match r.baseline with
    | none => lnorm
    | some b => updateBaseline e.shift b lnorm
  if r.learnCount + 1 ≥ e.learnNights then
    ⟨{ r with alarm := .quiet, baseline := some b, learnCount := 0 }, .learnt,
      some (.districtLearnt, (b : Int))⟩
  else ⟨{ r with baseline := some b, learnCount := r.learnCount + 1 }, .learnt, none⟩

/-- A leak is raised by nights (R109). -/
def raiseByNights (night : Nat) (r : DistrictRuntime) : Judged :=
  ⟨{ r with alarm := .leak, highCount := 0, record := some ⟨night, .nights⟩ }, .high,
    some (.leakRaised, (causeCode .nights : Int))⟩

/-- The judgement of a QUIET district with baseline b (R109). -/
def judgeQuiet (night : Nat) (e : DistrictEntry) (b lnorm : Nat) (r : DistrictRuntime) : Judged :=
  if isHigh e b lnorm then
    (if e.confirmNights ≤ 1 then raiseByNights night r
     else ⟨{ r with alarm := .watch, highCount := 1 }, .high, some (.watchEntered, excess lnorm b)⟩)
  else ⟨{ r with baseline := some (updateBaseline e.shift b lnorm) }, .normal, none⟩

/-- The judgement of a WATCH district with baseline b (R109). -/
def judgeWatch (night : Nat) (e : DistrictEntry) (b lnorm : Nat) (r : DistrictRuntime) : Judged :=
  if isHigh e b lnorm then
    (if r.highCount + 1 ≥ e.confirmNights then raiseByNights night r
     else ⟨{ r with highCount := r.highCount + 1 }, .high, none⟩)
  else
    ⟨{ r with alarm := .quiet, highCount := 0,
              baseline := some (updateBaseline e.shift b lnorm) }, .normal, none⟩

/-- The judgement of a LEAK or STANDING district with baseline b; `cleared` is the event of its clearing
(R110). -/
def judgeRaised (cleared : EventKind) (e : DistrictEntry) (b lnorm : Nat) (r : DistrictRuntime) :
    Judged :=
  if isHigh e b lnorm then ⟨{ r with normalCount := 0 }, .high, none⟩
  else if r.normalCount + 1 ≥ e.clearNights then
    ⟨{ r with alarm := .quiet, normalCount := 0, record := none }, .normal,
      some (cleared, match r.record with
        | some a => (a.night : Int)
        | none => 0)⟩
  else ⟨{ r with normalCount := r.normalCount + 1 }, .normal, none⟩

/-- The judgement of an assessed night by the district's state (R105 to R110). Outside LEARNING the
baseline is present (R104); a runtime without one is read as baseline 0 (log 29). -/
def judgeAssessed (night : Nat) (e : DistrictEntry) (lnorm : Nat) (r : DistrictRuntime) : Judged :=
  match r.alarm with
  | .learning => judgeLearning e lnorm r
  | .quiet => judgeQuiet night e (r.baseline.getD 0) lnorm r
  | .watch => judgeWatch night e (r.baseline.getD 0) lnorm r
  | .leak => judgeRaised .leakCleared e (r.baseline.getD 0) lnorm r
  | .standing => judgeRaised .repairConfirmed e (r.baseline.getD 0) lnorm r

/-! ### The history ring (R146, R147) -/

/-- A district's ring, oldest record first. -/
def ringOf (h : Tbl (List NightRecord)) (d : Nat) : List NightRecord := (tget h d).getD []

/-- A record joins a ring as its newest; a full ring gives up its oldest (R147). -/
def pushRecord (ring : List NightRecord) (r : NightRecord) : List NightRecord :=
  (if ring.length < Config.ringCapacity then ring else ring.drop 1) ++ [r]

/-- The record at an age, 0 the newest (R150). -/
def recordAt (ring : List NightRecord) (age : Nat) : Option NightRecord := ring.reverse[age]?

/-- The newest assessed record of a ring with its normalised leakage (R115). -/
def newestAssessed (ring : List NightRecord) : Option (Nat × Nat) :=
  ring.reverse.findSome? (fun r =>
    match r.result with
    | .notAssessed => none
    | .learnt | .normal | .high => r.lnorm.map (fun l => (r.date, l)))

/-! ### Acknowledge, rebase, relearn (R113, R115, R116) -/

/-- The answer payload of LEAK_ACK: the alarm state and record as they stand (R113). -/
def layAlarm (r : DistrictRuntime) : List Octet := [oct (alarmCode r.alarm)] ++ layAlarmRecord r.record

/-- A district of the active set with its runtime; an entry without one is read as initial. -/
def districtOf (s : State) (d : Nat) : Option (DistrictEntry × DistrictRuntime) :=
  (tget s.config.active.districts d).map (fun e => (e, (tget s.districts d).getD .initial))

/-- LEAK_ACK at the District State Table (R113). -/
def ownLeakAck : Owner := fun p payload s =>
  match payload with
  | [d, n1, n0] =>
    let night := u16 n1 n0
    if 63 < d.toNat ∨ Config.lastDay < night then (s, refusal .range)
    else
      match districtOf s d.toNat with
      | none => (s, refusal .unknownDma)
      | some (_, r) =>
        match r.alarm, r.record with
        | .leak, some a =>
          if a.night = night then
            let r' := { r with alarm := .standing }
            ((s.setDistricts (tput s.districts d.toNat r')).append .leakAcked d.toNat a.night
              (portCode p), ⟨.ok, layAlarm r'⟩)
          else (s, ⟨.stale, layAlarm r⟩)
        | .standing, some a => (s, ⟨if a.night = night then .already else .stale, layAlarm r⟩)
        | .leak, none | .standing, none => (s, ⟨.stale, layAlarm r⟩)
        | .learning, _ | .quiet, _ | .watch, _ => (s, ⟨.notInLeak, layAlarm r⟩)
  | _ => (s, refusal .format)

/-- A rebased runtime (R115). -/
def rebased (b : Nat) (r : DistrictRuntime) : DistrictRuntime :=
  { r with alarm := .quiet, baseline := some b, learnCount := 0, highCount := 0, normalCount := 0,
           record := none }

/-- REBASE at the District State Table (R115). -/
def ownRebase : Owner := fun _ payload s =>
  match payload with
  | [d] =>
    if 63 < d.toNat then (s, refusal .range)
    else
      match districtOf s d.toNat with
      | none => (s, refusal .unknownDma)
      | some (_, r) =>
        if r.alarm = .learning then (s, refusal .noNight)
        else
          match newestAssessed (ringOf s.history d.toNat) with
          | none => (s, refusal .noNight)
          | some (date, b) =>
            (s.setDistricts (tput s.districts d.toNat (rebased b r)), ⟨.ok, be16 date ++ be32 b⟩)
  | _ => (s, refusal .format)

/-- A district sent back to LEARNING (R116, R120). -/
def relearning (r : DistrictRuntime) : DistrictRuntime :=
  { r with alarm := .learning, baseline := none, learnCount := 0, highCount := 0, normalCount := 0,
           record := none }

/-- RELEARN at the District State Table (R116). -/
def ownRelearn : Owner := fun _ payload s =>
  match payload with
  | [d] =>
    if 63 < d.toNat then (s, refusal .range)
    else
      match districtOf s d.toNat with
      | none => (s, refusal .unknownDma)
      | some (_, r) => (s.setDistricts (tput s.districts d.toNat (relearning r)), ⟨.ok, []⟩)
  | _ => (s, refusal .format)

/-! ### Reading districts and nights (R118, R150) -/

/-- The payload of DMA_STATUS (R118, section 10.5). -/
def layStatus (e : DistrictEntry) (r : DistrictRuntime) : List Octet :=
  be16 e.code ++ [oct (alarmCode r.alarm)] ++ orAbsent (be32 0xFFFFFFFF) be32 r.baseline ++
    orAbsent (be32 0xFFFFFFFF) be32 (r.baseline.map (threshold e)) ++
    [oct r.learnCount, oct r.highCount, oct r.normalCount] ++ layAlarmRecord r.record ++
    orAbsent [0, 0, 0] (fun n => [1] ++ be16 n) r.lastSettled ++ [octFlag r.configMark]

/-- DMA_STATUS at the District State Table (R118). -/
def ownDmaStatus : Owner := fun _ payload s =>
  match payload with
  | [d] =>
    if 63 < d.toNat then (s, refusal .range)
    else
      match districtOf s d.toNat with
      | none => (s, refusal .unknownDma)
      | some (e, r) => (s, ⟨.ok, layStatus e r⟩)
  | _ => (s, refusal .format)

/-- NIGHT_READ at the History Store (R150): every record the ring holds counts, a NOT_ASSESSED one too (log 38). -/
def ownNightRead : Owner := fun _ payload s =>
  match payload with
  | [d, age] =>
    if 63 < d.toNat ∨ 31 < age.toNat then (s, refusal .range)
    else
      match tget s.config.active.districts d.toNat with
      | none => (s, refusal .unknownDma)
      | some _ =>
        let ring := ringOf s.history d.toNat
        match recordAt ring age.toNat with
        | none => (s, ⟨.noNight, [oct ring.length]⟩)
        | some r => (s, ⟨.ok, [oct ring.length] ++ layRecord r⟩)
  | _ => (s, refusal .format)

/-! ### Districts across an installation (R119 to R122, R148) -/

/-- The address of the meter at an index of a set. -/
def addressAt (meters : Tbl MeterEntry) (i : Nat) : Option Nat := (tget meters i).map MeterEntry.address

/-- The terms of an entry with the addresses of their meters in a set (R119). -/
def addressedTerms (meters : Tbl MeterEntry) (e : DistrictEntry) : List (Term × Option Nat) :=
  e.terms.map (fun x => (x, addressAt meters x.meter))

/-- The balance fields of two entries agree, each with its own meter table (R119). -/
def sameBalance (oldMeters newMeters : Tbl MeterEntry) (old new : DistrictEntry) : Bool :=
  (addressedTerms oldMeters old).isPerm (addressedTerms newMeters new) &&
    decide (old.pressurePoint = new.pressurePoint ∧
      old.pressurePoint.map (addressAt oldMeters) = new.pressurePoint.map (addressAt newMeters) ∧
      old.refPressure = new.refPressure ∧ old.exponent = new.exponent ∧
      old.properties = new.properties ∧ old.perProperty = new.perProperty ∧
      old.nonHousehold = new.nonHousehold)

/-- The judgement fields of two entries agree (R119). -/
def sameJudgement (old new : DistrictEntry) : Bool :=
  decide (old.absThreshold = new.absThreshold ∧ old.relThreshold = new.relThreshold ∧
    old.confirmNights = new.confirmNights ∧ old.clearNights = new.clearNights ∧
    old.learnNights = new.learnNights ∧ old.shift = new.shift ∧
    old.minCoverage = new.minCoverage ∧ old.burstThreshold = new.burstThreshold ∧
    old.code = new.code)

/-- A district changed in balance is reset (R120). -/
def resetDistrict (r : DistrictRuntime) : DistrictRuntime := { relearning r with configMark := true }

/-- A count at or above its new limit becomes the limit less 1 (R121). -/
def clampCount (limit n : Nat) : Nat := if limit ≤ n then limit - 1 else n

/-- A district changed in judgement has its counts clamped (R121). -/
def clampDistrict (e : DistrictEntry) (r : DistrictRuntime) : DistrictRuntime :=
  match r.alarm with
  | .learning => { r with learnCount := clampCount e.learnNights r.learnCount }
  | .watch =>
    let n := clampCount e.confirmNights r.highCount
    if n = 0 then { r with alarm := .quiet, highCount := 0 } else { r with highCount := n }
  | .leak | .standing => { r with normalCount := clampCount e.clearNights r.normalCount }
  | .quiet => r

/-- The runtime of one place of the new set after an installation (R119). -/
def carryDistrict (old new : ConfigSet) (runtime : Tbl DistrictRuntime) (d : Nat)
    (e : DistrictEntry) : DistrictRuntime :=
  match tget old.districts d, tget runtime d with
  | some o, some r =>
    if !sameBalance old.meters new.meters o e then resetDistrict r
    else if !sameJudgement o e then clampDistrict e r
    else r
  | _, _ => .initial

/-- The District State Table after an installation (R119 to R122). -/
def carryDistricts (old new : ConfigSet) (runtime : Tbl DistrictRuntime) : Tbl DistrictRuntime :=
  new.districts.map (fun x => (x.1, carryDistrict old new runtime x.1 x.2))

/-- The rings after an installation: kept where the district stays, else empty (R148). -/
def carryHistory (old new : ConfigSet) (h : Tbl (List NightRecord)) : Tbl (List NightRecord) :=
  h.filter (fun x => (tget old.districts x.1).isSome && (tget new.districts x.1).isSome)

end Sys2Proof.Machine
end

