-- ==== Sys2Proof/Machine/Settlement.lean ====
section
/-!
DEFINITION. The Settlement Unit (chapter 4): the run, the infill pass, the arithmetic from hour sums to
normalised leakage, the hand-over and the completion.
-/

namespace Sys2Proof.Machine

/-! ### The infill pass (R87) -/

/-- The value an EMPTY or CONFLICT slot takes between two FILLED neighbours (R87). -/
def estimateOf (before slot after : Slot) : Option Nat :=
  match slot, before, after with
  | .empty, .filled a, .filled b | .conflict, .filled a, .filled b => some ((a + b) / 2)
  | _, _, _ => none

/-- Slot k of a row after the pass, from the row as intake left it, in a window of n intervals (R87). -/
def infilledSlot (store : Tbl Slot) (n m k : Nat) : Slot :=
  if 1 ≤ k ∧ k + 2 ≤ n then
    match estimateOf (slotAt store m (k - 1)) (slotAt store m k) (slotAt store m (k + 1)) with
    | some v => .estimated v
    | none => slotAt store m k
  else slotAt store m k

/-- The pass over slot k of meter m's row. -/
def infillSlot (store : Tbl Slot) (n m : Nat) (acc : Tbl Slot) (k : Nat) : Tbl Slot :=
  if infilledSlot store n m k = slotAt store m k then acc
  else putSlot acc m k (infilledSlot store n m k)

/-- The pass over one row. -/
def infillRow (store : Tbl Slot) (n : Nat) (acc : Tbl Slot) (m : Nat) : Tbl Slot :=
  (List.range Config.rowSlots).foldl (infillSlot store n m) acc

/-- The meters of a set whose infill is enabled. -/
def infillMeters (meters : Tbl MeterEntry) : List Nat := tkeys (meters.filter (fun e => e.2.infill))

/-- The Interval Store after the infill pass (R87). -/
def infillStore (meters : Tbl MeterEntry) (n : Nat) (store : Tbl Slot) : Tbl Slot :=
  (infillMeters meters).foldl (infillRow store n) store

/-! ### Normalisation (R96 to R99) -/

/-- Bit by bit, the largest number below acc + 2^bits, from acc on, whose square is not above x. -/
def isqrtFrom (bits acc x : Nat) : Nat :=
  match bits with
  | 0 => acc
  | b + 1 => if (acc + 2 ^ b) * (acc + 2 ^ b) ≤ x then isqrtFrom b (acc + 2 ^ b) x else isqrtFrom b acc x

/-- isqrt for the arguments of R97, which lie below 2^36 (00_scope.md, Numbers and arithmetic). -/
def isqrt (x : Nat) : Nat := isqrtFrom 18 0 x

/-- The pressure ratio before the clamp (R96). -/
def rawRatio (refPressure pavg : Nat) : Nat := refPressure * Config.q16 / pavg

/-- The clamp of the pressure ratio (R96). -/
def clampRatio (r : Nat) : Nat := min Config.ratioMax (max Config.ratioMin r)

/-- The square root of a ratio in Q16 (R97). -/
def ratioRoot (r : Nat) : Nat := isqrt (r * Config.q16)

/-- The factor of an exponent code at a clamped ratio (R98). -/
def exponentFactor (code r : Nat) : Nat :=
  match code with
  | 0 => ratioRoot r
  | 1 => r
  | 2 => r * ratioRoot r / Config.q16
  | 3 => r * r / Config.q16
  | _ => r * r / Config.q16 * ratioRoot r / Config.q16

/-- The normalised leakage (R99). -/
def normalise (leakage factor : Nat) : Nat := leakage * factor / Config.q16

/-! ### A district's result (R85 to R95) -/

/-- The complete hour positions with their sums, in order (R90). -/
def completePositions (meters : Tbl MeterEntry) (store : Tbl Slot) (terms : List Term) (n : Nat) :
    List (Nat × Int) :=
  (List.range (n - 3)).filterMap (fun j =>
    (hourSum availableValue meters store terms j).map (fun h => (j, h)))

/-- The smallest of a list of position sums, the earliest where several attain it (R91). -/
def minimumOf (first : Nat × Int) (rest : List (Nat × Int)) : Nat × Int :=
  rest.foldl (fun best x => if x.2 < best.2 then x else best) first

/-- The average pressure of the minimum hour, when correction is applied (R86, R95). -/
def pressureAverage (e : DistrictEntry) (store : Tbl Slot) (suspended : IdxSet) (j : Nat) :
    Option Nat :=
  match e.pressurePoint with
  | none => none
  | some m =>
    if hasIdx suspended m then none
    else
      match availableValue (slotAt store m j), availableValue (slotAt store m (j + 1)),
          availableValue (slotAt store m (j + 2)), availableValue (slotAt store m (j + 3)) with
      | some a, some b, some c, some d =>
        if (a + b + c + d) / 4 = 0 then none else some ((a + b + c + d) / 4)
      | _, _, _, _ => none

/-- Whether a row has an ESTIMATED slot among j..j+3. -/
def estimatedIn (store : Tbl Slot) (m j : Nat) : Bool :=
  [j, j + 1, j + 2, j + 3].any (fun k =>
    match slotAt store m k with
    | .estimated _ => true
    | .empty | .filled _ | .conflict => false)

/-- INFILLED: an estimate entered a figure the result reports (R92). -/
def estimateUsed (e : DistrictEntry) (store : Tbl Slot) (pavg : Option Nat) (j : Nat) : Bool :=
  e.terms.any (fun x => estimatedIn store x.meter j) ||
    (match pavg, e.pressurePoint with
      | some _, some m => estimatedIn store m j
      | _, _ => false)

/-- The figures of an assessed result (R101). -/
structure Figures where
  minPosition : Nat
  mnf : Int
  leakage : Nat
  pavg : Option Nat
  lnorm : Nat
  belowAllowance : Bool
  clamped : Bool
  infilled : Bool
  deriving DecidableEq, Repr

/-- The factor of an assessed district: 65 536 when left UNCORRECTED (R95, R98). -/
def factorOf (e : DistrictEntry) (pavg : Option Nat) : Nat :=
  match pavg with
  | none => Config.q16
  | some p => exponentFactor e.exponent (clampRatio (rawRatio e.refPressure p))

/-- Whether the clamp changed the ratio (R96). -/
def clampActs (e : DistrictEntry) (pavg : Option Nat) : Bool :=
  match pavg with
  | none => false
  | some p => decide (clampRatio (rawRatio e.refPressure p) ≠ rawRatio e.refPressure p)

/-- The figures from the minimum position and MNF (R92, R94 to R99). -/
def figuresOf (e : DistrictEntry) (store : Tbl Slot) (suspended : IdxSet) (least : Nat × Int) :
    Figures :=
  let pavg := pressureAverage e store suspended least.1
  let leakage := (least.2 - (lnu e : Int)).toNat
  { minPosition := least.1
    mnf := least.2
    leakage := leakage
    pavg := pavg
    lnorm := normalise leakage (factorOf e pavg)
    belowAllowance := decide (least.2 - (lnu e : Int) < 0)
    clamped := clampActs e pavg
    infilled := estimateUsed e store pavg least.1 }

/-- The outcome of settlement for one district before its hand-over: the complete positions, and the reason
it is NOT_ASSESSED or its figures (R101). -/
structure Settled where
  positions : Nat
  outcome : Reason ⊕ Figures
  deriving DecidableEq, Repr

/-- The settlement of one district of a run (R80, R85, R90). -/
def settleDistrict (s : State) (run : Run) (e : DistrictEntry) : Settled :=
  let complete := completePositions s.config.active.meters s.intake.store e.terms run.length
  ⟨complete.length,
    if run.disturbed then .inl .disturbed
    else if termSuspended e s.intake.suspended then .inl .suspended
    else if complete.length < e.minCoverage then .inl .incomplete
    else
      match complete with
      | [] => .inl .incomplete
      | first :: rest =>
        .inr (figuresOf e s.intake.store s.intake.suspended (minimumOf first rest))⟩

/-! ### The hand-over (R84, R100, R101) -/

/-- The condition set of a result (R100). -/
def conditionsOf (stepped burst newConfig : Bool) (x : Reason ⊕ Figures) : Conditions :=
  match x with
  | .inl _ => ⟨false, false, false, false, false, burst, stepped, newConfig⟩
  | .inr f =>
    ⟨decide (f.mnf < 0), f.belowAllowance, f.pavg.isNone, f.clamped, f.infilled, burst, stepped,
      newConfig⟩

/-- The judgement of a result of either kind (R105). -/
def judgeResult (night : Nat) (e : DistrictEntry) (x : Reason ⊕ Figures) (r : DistrictRuntime) :
    Judged :=
  match x with
  | .inl _ => ⟨r, .notAssessed, none⟩
  | .inr f => judgeAssessed night e f.lnorm r

/-- The night record of a judged result (R105, R145). -/
def recordOf (night : Nat) (e : DistrictEntry) (positions : Nat) (conditions : Conditions)
    (x : Reason ⊕ Figures) (j : Judged) : NightRecord :=
  match x with
  | .inl reason =>
    { date := night, code := e.code, result := j.result, reason := some reason,
      conditions := conditions, positions := positions, minPosition := none, mnf := none,
      lnu := lnu e, leakage := none, pavg := none, lnorm := none, baselineAfter := none,
      alarmAfter := j.runtime.alarm }
  | .inr f =>
    { date := night, code := e.code, result := j.result, reason := none, conditions := conditions,
      positions := positions, minPosition := some f.minPosition, mnf := some f.mnf, lnu := lnu e,
      leakage := some f.leakage, pavg := f.pavg, lnorm := some f.lnorm,
      baselineAfter := j.runtime.baseline, alarmAfter := j.runtime.alarm }

/-- The run's counts after a hand-over that was not skipped (R78, R101 step 5). -/
def countResult (run : Run) (x : NightResult) : Run :=
  match x with
  | .notAssessed => { run with notAssessed := run.notAssessed + 1 }
  | .high => { run with assessed := run.assessed + 1, high := run.high + 1 }
  | .learnt | .normal => { run with assessed := run.assessed + 1 }

/-- The skip test: the district has already settled this night or a later one (R84). -/
def alreadySettled (night : Nat) (r : DistrictRuntime) : Bool :=
  match r.lastSettled with
  | none => false
  | some n => decide (night ≤ n)

/-- A judged district's runtime with its last settled night, its configuration mark cleared (R105). -/
def settledRuntime (night : Nat) (j : Judged) : DistrictRuntime :=
  { j.runtime with lastSettled := some night, configMark := false }

/-- The event of a judgement, if any, is appended (R111). -/
def appendJudged (d night : Nat) (event : Option (EventKind × Int)) (s : State) : State :=
  match event with
  | none => s
  | some (kind, detail) => s.append kind d night detail

/-- Steps 2 to 5 of a hand-over of district d that is not skipped (R101). -/
def judgeAndRecord (run : Run) (d : Nat) (e : DistrictEntry) (r : DistrictRuntime) (s : State) :
    State :=
  let x := settleDistrict s run e
  let conditions := conditionsOf run.clockStepped (hasIdx s.burst.raised d) r.configMark x.outcome
  let j := judgeResult run.date e x.outcome r
  let s1 := s.setDistricts (tput s.districts d (settledRuntime run.date j))
  let s2 := appendJudged d run.date j.event s1
  let s3 := s2.setHistory (tput s2.history d
    (pushRecord (ringOf s2.history d) (recordOf run.date e x.positions conditions x.outcome j)))
  s3.setSettlement (some (countResult run j.result))

/-- The hand-over of district d, the run's list already without it (R84, R101). -/
def handOverDistrict (run : Run) (d : Nat) (s : State) : State :=
  match districtOf s d with
  | none => s.setSettlement (some run)
  | some (e, r) =>
    if alreadySettled run.date r then s.setSettlement (some run)
    else judgeAndRecord run d e r s

/-! ### The course of a run (R79, R81) -/

/-- The start of a run at grace end (R79). -/
def startRun (p : NightPlan) (stepped disturbed : Bool) (districts : Tbl DistrictEntry) : Run :=
  { date := p.date, window := p.window, length := p.length, clockStepped := stepped,
    disturbed := disturbed, infilled := false, remaining := tkeys districts, assessed := 0, high := 0,
    notAssessed := 0 }

/-- The infill pass of a run that has not had it (R79, R87). -/
def infillEvent (s : State) : State :=
  match s.settlement with
  | none => s
  | some run =>
    if run.infilled then s
    else
      (s.setIntake
        { s.intake with
          store := infillStore s.config.active.meters run.length s.intake.store }).setSettlement
        (some { run with infilled := true })

/-- The hand-over of the district at the head of the remaining list (R80). -/
def handOverEvent (s : State) : State :=
  match s.settlement with
  | none => s
  | some run =>
    match run.infilled, run.remaining with
    | true, d :: rest => handOverDistrict { run with remaining := rest } d s
    | _, _ => s

/-- The NIGHT_SETTLED detail: 0, then the assessed, high and not-assessed counts (section 10.5). -/
def settledDetail (run : Run) : Int :=
  ((run.assessed * 65536 + run.high * 256 + run.notAssessed : Nat) : Int)

/-- The completion of a run with nothing remaining (R81). -/
def completeEvent (s : State) : State :=
  match s.settlement with
  | none => s
  | some run =>
    match run.infilled, run.remaining with
    | true, [] => (s.append .nightSettled 0 run.date (settledDetail run)).setSettlement none
    | _, _ => s

end Sys2Proof.Machine
end

