-- ==== Sys2Proof/Machine/Suspensions.lean ====
section
/-!
DEFINITION. The Suspension List (chapter 7): SUSPEND, RESUME, SUSPEND_LIST, expiry, installation.
-/

namespace Sys2Proof.Machine

/-- The first night whose balance a suspension taken now can still reach (R138), which after a re-entry at an earlier
date may lie at or before the last settled night (log 37). -/
def referenceNight (c : NightCycle) : Option Nat :=
  match c with
  | .opened p | .grace p => some p.date
  | .settling p => some (p.date + 1)
  | .day (some p) => some p.date
  | .day none | .halted => none

/-- Whether an until-night passes check 3 of R138. -/
def untilInRange (c : NightCycle) (u : Nat) : Bool :=
  match referenceNight c with
  | none => false
  | some n => decide (n ≤ u ∧ u ≤ n + 30 ∧ u ≤ Config.lastDay)

/-- In OPEN and GRACE an accepted SUSPEND sets the meter's mark (R139). -/
def markSuspended (m : Nat) (s : State) : State :=
  match filingPlan s.calendar.cycle with
  | some _ => s.setIntake { s.intake with suspended := insertIdx s.intake.suspended m }
  | none => s

/-- SUSPEND at the Suspension List (R138, R139). -/
def ownSuspend : Owner := fun p payload s =>
  match payload with
  | [a1, a0, u1, u0] =>
    let u := u16 u1 u0
    if !s.calendar.valid then (s, refusal .noTime)
    else if !untilInRange s.calendar.cycle u then (s, refusal .range)
    else
      match meterAt s.config.active.meters (u16 a1 a0) with
      | none => (s, refusal .unknownMeter)
      | some (m, e) =>
        let listed := (tget s.suspensions m).isSome
        if !listed && decide (Config.suspensionCapacity ≤ s.suspensions.length) then
          (s, refusal .full)
        else
          let x : Suspension := ⟨u, p⟩
          let s1 := markSuspended m (s.setSuspensions (tput s.suspensions m x))
          (s1, ⟨.ok, [octFlag listed, octFlag (hasIdx s1.intake.suspended m)] ++
            laySuspension m e.address x⟩)
  | _ => (s, refusal .format)

/-- RESUME at the Suspension List (R140). -/
def ownResume : Owner := fun _ payload s =>
  match payload with
  | [a1, a0] =>
    match meterAt s.config.active.meters (u16 a1 a0) with
    | none => (s, refusal .unknownMeter)
    | some (m, e) =>
      match tget s.suspensions m with
      | none => (s, refusal .notSuspended)
      | some x =>
        (s.setSuspensions (tdel s.suspensions m), ⟨.ok, laySuspension m e.address x⟩)
  | _ => (s, refusal .format)

/-- The address of the meter at an index of the active set; 0 where the place is empty. -/
def activeAddress (s : State) (m : Nat) : Nat :=
  match tget s.config.active.meters m with
  | some e => e.address
  | none => 0

/-- SUSPEND_LIST at the Suspension List (R144). -/
def ownSuspendList : Owner := fun _ payload s =>
  match payload with
  | [] =>
    (s, ⟨.ok, [oct s.suspensions.length] ++
      s.suspensions.flatMap (fun e => laySuspension e.1 (activeAddress s e.1) e.2)⟩)
  | _ => (s, refusal .format)

/-- Whether an entry expires at the settlement end of night d (R142). -/
def expires (d : Nat) (x : Suspension) : Bool := decide (x.untilNight ≤ d)

/-- Expiry at the settlement end of night d, in increasing meter order (R142). -/
def expireSuspensions (d : Nat) (s : State) : State :=
  (s.suspensions.filter (fun e => expires d e.2)).foldl
    (fun r e => r.append .suspensionExpired e.1 d (portCode e.2.setBy))
    (s.setSuspensions (s.suspensions.filter (fun e => !expires d e.2)))

/-- The list after an installation: entries whose index keeps its meter's address stay (R143). -/
def carrySuspensions (old new : Tbl MeterEntry) (l : Tbl Suspension) : Tbl Suspension :=
  l.filter (fun e => sameAddress old new e.1)

end Sys2Proof.Machine
end

