-- ==== Sys2Proof/Machine/NightCycle.lean ====
section
/-!
DEFINITION. Installation (R49) and the night cycle (chapter 3): boundaries, the calendar's tick, TIME_SET,
TIME_GET, the daylight-saving item, entries into the cycle, the settlement end.
-/

namespace Sys2Proof.Machine

/-! ### Installation (R49) -/

/-- The pending set becomes the active set and the other blocks adjust their state; `night` is the night
date of the CONFIG_INSTALLED event (R49, R25, R119, R143, R148, R65). Boundaries that a re-plan has made due
are fired by the caller (`fireDue`). -/
def install (night : Nat) (s : State) : State :=
  match s.config.pending with
  | none => s
  | some pd =>
    let old := s.config.active
    let new := pd.config
    let generation := s.config.generation + 1
    let s1 := (s.setConfig
        { s.config with active := new, generation := generation, pending := none }).append
      .configInstalled (portCode pd.port) night generation.toNat
    let s2 := s1.setIntake
      { s1.intake with runtime := carryMeters old.meters new.meters s1.intake.runtime }
    let s3 := s2.setDistricts (carryDistricts old new s2.districts)
    let s4 := s3.setHistory (carryHistory old new s3.history)
    let s5 := s4.setSuspensions (carrySuspensions old.meters new.meters s4.suspensions)
    replan s5

/-- An installation other than at a settlement end takes place in DAY and HALTED (R49). -/
def installNow (s : State) : State :=
  if installPhase s.calendar.cycle then install (eventNight s) s else s

/-! ### Boundaries (R67 to R70, R72) -/

/-- The window start of a night lies before the step horizon (R74). -/
def beforeHorizon (c : Calendar) (p : NightPlan) : Bool :=
  match c.horizon with
  | none => false
  | some h => decide (p.startsAt < h)

/-- The night of a plan is entered: it becomes current and OPEN, its marks and the nightly state of intake
and burst watch are set up (R68, R22, R125). A night that a re-plan opens late is marked CLOCK_STEPPED too where its
window start lies before the step horizon (R74 beside R65; log 36). -/
def enterNight (p : NightPlan) (s : State) : State :=
  let s1 := s.setCalendar
    { s.calendar with
      cycle := .opened p, disturbed := false, clockStepped := beforeHorizon s.calendar p }
  let s2 := s1.setIntake (setUpNight (tkeys s1.suspensions) s1.intake)
  s2.setBurst (clearBurst s2.burst)

/-- Window end (R69). -/
def closeWindow (p : NightPlan) (s : State) : State :=
  s.setCalendar { s.calendar with cycle := .grace p }

/-- Grace end: held burst entries are taken, the phase becomes SETTLING, the closed window is set and the
Settlement Unit started (R70, R79). -/
def startSettling (p : NightPlan) (s : State) : State :=
  let s1 := takeAllHeld s
  let s2 := s1.setCalendar
    { s1.calendar with cycle := .settling p, closed := some p.closedWindow }
  s2.setSettlement
    (some (startRun p s2.calendar.clockStepped s2.calendar.disturbed s2.config.active.districts))

/-- Fires a window start that t has reached. -/
def fireWindowStart (s : State) : State :=
  match s.calendar.cycle with
  | .day (some p) => if p.startsAt ≤ s.calendar.t then enterNight p s else s
  | .day none | .halted | .opened _ | .grace _ | .settling _ => s

/-- Fires a window end that t has reached. -/
def fireWindowEnd (s : State) : State :=
  match s.calendar.cycle with
  | .opened p => if p.endsAt ≤ s.calendar.t then closeWindow p s else s
  | .day _ | .halted | .grace _ | .settling _ => s

/-- Fires a grace end that t has reached. -/
def fireGraceEnd (s : State) : State :=
  match s.calendar.cycle with
  | .grace p => if p.closesAt ≤ s.calendar.t then startSettling p s else s
  | .day _ | .halted | .opened _ | .settling _ => s

/-- Every boundary ahead that t has reached is fired, in order, in the same event (R67, R72). -/
def fireDue (s : State) : State := fireGraceEnd (fireWindowEnd (fireWindowStart s))

/-! ### The calendar's tick (R53, R54) -/

/-- DAY becomes HALTED and the plan is discarded; the other phases stand (R54). -/
def haltDay (c : NightCycle) : NightCycle :=
  match c with
  | .day _ | .halted => .halted
  | .opened p => .opened p
  | .grace p => .grace p
  | .settling p => .settling p

/-- The tick past the end of the calendar's range (R54); an entry into HALTED installs a pending set
(R49). -/
def rangeEnd (s : State) : State :=
  let s1 := s.setCalendar
    { s.calendar with t := 0, valid := false, horizon := none, cycle := haltDay s.calendar.cycle }
  match s.calendar.cycle with
  | .day _ => installNow s1
  | .halted | .opened _ | .grace _ | .settling _ => s1

/-- One second tick: the count advances and the boundaries it reaches fire (R53, R54, R67). -/
def tick (s : State) : State :=
  if s.calendar.t < Config.lastSecond then
    fireDue (s.setCalendar { s.calendar with t := s.calendar.t + 1 })
  else rangeEnd s

/-- The calendar reaches a boundary's instant: it is there already, or the next tick brings it there (R67;
log 5). Otherwise the boundary is not due. -/
def reachBoundary (instant : Nat) (s : State) : State :=
  if instant ≤ s.calendar.t then fireDue s
  else if instant = s.calendar.t + 1 then tick s
  else s

/-! ### Entering the cycle (R75, R76) -/

/-- The entry into the cycle at a first setting, the calendar VALID at t, with the step horizon absent; a pending
set is left to the caller (R75). A night whose settlement a loss has ended is none of those it may enter or plan (R83;
log 39). -/
def enterFirst (s : State) : State :=
  let night := s.config.active.night
  let rules := s.calendar.rules
  let s1 := s.setCalendar
    { s.calendar with
      closed := closedAt night rules s.calendar.t, cycle := .day none, horizon := none }
  match ((firstUnended night rules s.calendar.t).map (firstOutside s.calendar.leftOut)).bind s.plan with
  | none => s1
  | some p =>
    if s.calendar.t < p.startsAt then
      s1.setCalendar { s1.calendar with cycle := .day (some p) }
    else enterNight p s1

/-- The phase of a night re-entered at start-up (R76). -/
def reenteredPhase (t : Nat) (p : NightPlan) : NightCycle :=
  if t < p.endsAt then .opened p else .grace p

/-- A night whose span is still running is entered again at start-up, marked DISTURBED (R76). -/
def reenterNight (p : NightPlan) (s : State) : State :=
  let s1 := enterNight p s
  s1.setCalendar { s1.calendar with disturbed := true, cycle := reenteredPhase s.calendar.t p }

/-- Whether a start-up in the span of night d enters it: no loss has ended its settlement, and where this start-up ends a
settlement, d is later than that night (R76, R83; log 39). -/
def Calendar.mayEnter (c : Calendar) (d : Nat) : Bool :=
  !hasIdx c.leftOut d &&
    match c.brokenOff with
    | .settling n => decide (n < d)
    | .nothing | .collecting _ => true

/-- Night d, or the night after the one whose settlement this start-up ends, where that is later (R83). -/
def Calendar.planFrom (c : Calendar) (d : Nat) : Nat :=
  match c.brokenOff with
  | .settling n => max d (n + 1)
  | .nothing | .collecting _ => d

/-- The nights a start-up does not plan: those whose settlement a loss has ended, and the interrupted one (R83, R172). -/
def Calendar.notPlanned (c : Calendar) : List Nat :=
  match c.brokenOff with
  | .collecting n => n :: c.leftOut
  | .nothing | .settling _ => c.leftOut

/-- The earliest night from d on that a start-up may plan (R76, R83, R172; log 39). -/
def Calendar.firstToPlan (c : Calendar) (d : Nat) : Nat := firstOutside c.notPlanned (c.planFrom d)

/-- The entry into the cycle at start-up, from the calendar as retained: the table of R76, but for the nights
whose settlement a loss has ended, with those before the one this start-up ends (R83), and the interrupted night outside
its span (R172), which are left out (log 39). An INVALID calendar enters HALTED, the closed window left absent (log 40). -/
def enterStartUp (s : State) : State :=
  let s0 := s.setCalendar { s.calendar with brokenOff := .nothing }
  if s.calendar.valid then
    let night := s.config.active.night
    let rules := s.calendar.rules
    let s1 := s0.setCalendar
      { s0.calendar with closed := closedAt night rules s.calendar.t, cycle := .day none }
    match (nightSpanning night rules s.calendar.t).filter s.calendar.mayEnter with
    | some d =>
      match s.plan d with
      | some p => reenterNight p s1
      | none => s1
    | none =>
      s1.setCalendar
        { s1.calendar with
          cycle := .day (((firstUnopened night rules s.calendar.t).map s.calendar.firstToPlan).bind
            s.plan) }
  else s0.setCalendar { s0.calendar with cycle := .halted }

/-! ### TIME_SET (R55 to R57, R72 to R75) -/

/-- The step of a TIME_SET (R56). -/
def stepOf (t t' : Nat) : Int := (t' : Int) - (t : Int)

/-- A step of more than 60 seconds either way is a jump (R56). -/
def isJump (step : Int) : Bool := decide (step.natAbs > Config.trimSeconds)

/-- The CLOCK_SET detail of a step, saturated (R57). -/
def saturate (step : Int) : Int := max (-2147483647) (min 2147483647 step)

/-- The CLOCK_SET detail of a first setting (R57). -/
def firstSettingDetail : Int := -2147483648

/-- A jump marks the current night in OPEN and GRACE (R74). -/
def jumpMarks (c : Calendar) : Bool :=
  match c.cycle with
  | .opened _ | .grace _ => true
  | .halted | .day _ | .settling _ => c.clockStepped

/-- What a step does to the marks and the horizon (R56, R74). -/
def stepCalendar (c : Calendar) (t' : Nat) : Calendar :=
  let step := stepOf c.t t'
  if isJump step then
    { c with t := t', clockStepped := jumpMarks c, horizon := if step > 0 then some t' else none }
  else { c with t := t' }

/-- A TIME_SET taken while the calendar is VALID (R55, R56, R57, R72). -/
def setTimeValid (p : Port) (t' : Nat) (s : State) : State :=
  fireDue ((s.setCalendar (stepCalendar s.calendar t')).append .clockSet (portCode p) (eventNight s)
    (saturate (stepOf s.calendar.t t')))

/-- A TIME_SET taken while the calendar is INVALID (R55, R57, R75): in SETTLING the entry waits for the
settlement end; otherwise the cycle is entered, a pending set installed in DAY, CLOCK_SET appended and the
boundaries reached fired (log 8). -/
def setTimeInvalid (p : Port) (t' : Nat) (s : State) : State :=
  let s1 := s.setCalendar { s.calendar with t := t', valid := true }
  match s.calendar.cycle with
  | .settling _ =>
    (s1.setCalendar { s1.calendar with entryDue := true }).append .clockSet (portCode p)
      (eventNight s) firstSettingDetail
  | .halted | .day _ | .opened _ | .grace _ =>
    let s2 := enterFirst s1
    fireDue ((installNow s2).append .clockSet (portCode p) (eventNight s2) firstSettingDetail)

/-- An accepted TIME_SET (R55). -/
def setTime (p : Port) (t' : Nat) (s : State) : State :=
  if s.calendar.valid then setTimeValid p t' s else setTimeInvalid p t' s

/-- TIME_SET at the Calendar and Night Cycle (R55). -/
def ownTimeSet : Owner := fun p payload s =>
  match payload with
  | [y1, y0, mo, d, h, mi, se] =>
    let c : CivilTime := ⟨u16 y1 y0, mo.toNat, d.toNat, h.toNat, mi.toNat, se.toNat⟩
    if civilInRange c then (setTime p (instantOf c) s, ⟨.ok, []⟩) else (s, refusal .range)
  | _ => (s, refusal .format)

/-! ### TIME_GET and the daylight-saving item (R58, R59, R62) -/

/-- The plan fields of TIME_GET (R58). -/
def layPlan : Option NightPlan → List Octet
  | none => [0] ++ be16 0 ++ be32 0 ++ be32 0
  | some p => [1] ++ be16 p.date ++ be32 p.window ++ be32 p.graceEnd

/-- TIME_GET at the Calendar and Night Cycle (R58). -/
def ownTimeGet : Owner := fun _ payload s =>
  match payload with
  | [] =>
    let c := s.calendar
    (s, ⟨.ok, layCivil (civilOf c.t) ++ layCivil (civilOf (localTime c.rules c.t)) ++
      [oct (dstStateCode c.rules c.t), octFlag c.valid] ++ layPlan (carriedPlan c.cycle)⟩)
  | _ => (s, refusal .format)

/-- The daylight-saving item's ranges (R59). -/
def rulesInRange (enable : Nat) (a b : DstRule) : Bool :=
  decide (enable ≤ 1) && ruleInRange a && ruleInRange b

/-- The daylight-saving item of PARAM_SET (R59, R62, R166). -/
def ownDaylightSaving : Owner := fun _ payload s =>
  match payload with
  | [item, en, m1, w1, d1, h1, m2, w2, d2, h2] =>
    let a : DstRule := ⟨m1.toNat, w1.toNat, d1.toNat, h1.toNat⟩
    let b : DstRule := ⟨m2.toNat, w2.toNat, d2.toNat, h2.toNat⟩
    if item.toNat ≠ 1 then (s, refusal .format)
    else if !rulesInRange en.toNat a b then (s, refusal .range)
    else
      (fireDue (replan
        (s.setCalendar { s.calendar with rules := ⟨decide (en.toNat = 1), a, b⟩ })), ⟨.ok, []⟩)
  | _ => (s, refusal .format)

/-! ### The settlement end (R71) -/

/-- Step 4 of the settlement end of night d, with its exceptions: an INVALID calendar halts the cycle (R54),
a TIME_SET taken meanwhile enters it under R75, otherwise night d + 1 is planned, or the first later one whose settlement
no loss has ended (R83; log 39). -/
def planAfter (d : Nat) (s : State) : State :=
  if !s.calendar.valid then
    s.setCalendar { s.calendar with cycle := .halted, entryDue := false }
  else if s.calendar.entryDue then
    enterFirst (s.setCalendar { s.calendar with entryDue := false })
  else
    s.setCalendar
      { s.calendar with cycle := .day (s.plan (firstOutside s.calendar.leftOut (d + 1))) }

/-- The settlement end of the night of plan p (R71). -/
def endSettlement (p : NightPlan) (s : State) : State :=
  let s0 := s.setCalendar { s.calendar with cycle := .day none }
  let s1 := updateMeters p.date s0
  let s2 := s1.setIntake (clearNight s1.intake)
  let s3 := expireSuspensions p.date s2
  let s4 := install p.date s3
  fireDue (planAfter p.date s4)

/-- The settlement end is due once the Settlement Unit has reported completion: the phase is SETTLING and
the unit is IDLE (R71, R78, R81). -/
def settlementEndEvent (s : State) : State :=
  match s.calendar.cycle, s.settlement with
  | .settling p, none => endSettlement p s
  | _, _ => s

end Sys2Proof.Machine
end

