-- ==== Sys2Proof/Machine/Configuration.lean ====
section
/-!
DEFINITION. The Configuration Store (chapter 2): the staging hold and its timer, the edit requests, commit,
CONFIG_READ.
-/

namespace Sys2Proof.Machine

/-! ### The staging hold (R36, R43, R45, R46) -/

/-- Replaces the hold. -/
def State.setHold (s : State) (h : Option Hold) : State := s.setConfig { s.config with hold := h }

/-- The hold, when port p holds it. -/
def heldBy (s : State) (p : Port) : Option Hold :=
  match s.config.hold with
  | some h => if h.port = p then some h else none
  | none => none

/-- The hold timer restarts (R43). -/
def Hold.restart (h : Hold) : Hold := { h with timer := Config.holdSeconds }

/-- The set a new staging set is a copy of: the pending set if one exists, else the active set, with its night parameters
even where it has no meter and no district (R36 beside R33; log 43). -/
def stagingSource (c : ConfigStore) : ConfigSet :=
  match c.pending with
  | some pd => pd.config
  | none => c.active

/-- EDIT_OPEN at the Configuration Store (R36). -/
def ownEditOpen : Owner := fun p payload s =>
  match payload with
  | [] =>
    match s.config.hold with
    | none => (s.setHold (some ⟨p, stagingSource s.config, Config.holdSeconds⟩), ⟨.ok, []⟩)
    | some h =>
      if h.port = p then (s.setHold (some h.restart), ⟨.ok, []⟩)
      else (s, ⟨.held, [oct (portCode h.port)]⟩)
  | _ => (s, refusal .format)

/-- The hold's ends that append STAGING_DROPPED; the detail is the cause, 0 TIMEOUT or 1 PORT_RESET
(R43, R46, section 10.5). -/
def dropStaging (h : Hold) (cause : Nat) (s : State) : State :=
  (s.setHold none).append .stagingDropped (portCode h.port) (eventNight s) cause

/-- The hold timer's expiry (R43). -/
def expireHold (s : State) : State :=
  match s.config.hold with
  | none => s
  | some h => dropStaging h 0 s

/-- A port reset releases the hold of its port (R46). -/
def releaseHold (p : Port) (s : State) : State :=
  match heldBy s p with
  | none => s
  | some h => dropStaging h 1 s

/-- EDIT_DISCARD at the Configuration Store (R45). -/
def ownEditDiscard : Owner := fun p payload s =>
  match payload with
  | [] =>
    match heldBy s p with
    | none => (s, refusal .notHolder)
    | some _ => (s.setHold none, ⟨.ok, []⟩)
  | _ => (s, refusal .format)

/-! ### Edits (R37 to R42) -/

/-- An edit of the staging set: refused NOT_HOLDER, refused by its own checks, or made with the timer
restarted (R37). -/
def editStaging (edit : ConfigSet → Except Status ConfigSet) (p : Port) (s : State) : State × Answer :=
  match heldBy s p with
  | none => (s, refusal .notHolder)
  | some h =>
    match edit h.staging with
    | .error x => (s, refusal x)
    | .ok c => (s.setHold (some { h with staging := c, timer := Config.holdSeconds }), ⟨.ok, []⟩)

/-- The checks and effect of EDIT_METER on a set (R38). -/
def editMeterSet (payload : List Octet) (c : ConfigSet) : Except Status ConfigSet :=
  match payload with
  | [i1, i0, a1, a0, k, w, m1, m0, f] =>
    if 255 < u16 i1 i0 then .error .range
    else
      match readMeter (u16 a1 a0) k.toNat w.toNat (u16 m1 m0) f.toNat with
      | none => .error .range
      | some e => .ok { c with meters := tput c.meters (u16 i1 i0) e }
  | _ => .error .format

/-- The checks and effect of EDIT_METER_DROP on a set (R39). -/
def dropMeterSet (payload : List Octet) (c : ConfigSet) : Except Status ConfigSet :=
  match payload with
  | [i1, i0] =>
    if 255 < u16 i1 i0 then .error .range
    else
      match tget c.meters (u16 i1 i0) with
      | none => .error .unknownMeter
      | some _ => .ok { c with meters := tdel c.meters (u16 i1 i0) }
  | _ => .error .format

/-- The checks and effect of EDIT_DMA on a set (R40). -/
def editDmaSet (payload : List Octet) (c : ConfigSet) : Except Status ConfigSet :=
  match readDistrict payload with
  | none => .error .format
  | some (d, codes, e) =>
    if 63 < d ∨ codes.any (fun x => decide (511 < x)) ∨ !districtInRange e then .error .range
    else .ok { c with districts := tput c.districts d e }

/-- The checks and effect of EDIT_DMA_DROP on a set (R41). -/
def dropDmaSet (payload : List Octet) (c : ConfigSet) : Except Status ConfigSet :=
  match payload with
  | [d] =>
    if 63 < d.toNat then .error .range
    else
      match tget c.districts d.toNat with
      | none => .error .unknownDma
      | some _ => .ok { c with districts := tdel c.districts d.toNat }
  | _ => .error .format

/-- The checks and effect of EDIT_NIGHT on a set (R42). -/
def editNightSet (payload : List Octet) (c : ConfigSet) : Except Status ConfigSet :=
  match payload with
  | [w, n, g] =>
    if nightInRange ⟨w.toNat, n.toNat, g.toNat⟩ then
      .ok { c with night := ⟨w.toNat, n.toNat, g.toNat⟩ }
    else .error .range
  | _ => .error .format

/-- EDIT_METER at the Configuration Store (R38). -/
def ownEditMeter : Owner := fun p payload s => editStaging (editMeterSet payload) p s

/-- EDIT_METER_DROP at the Configuration Store (R39). -/
def ownEditMeterDrop : Owner := fun p payload s => editStaging (dropMeterSet payload) p s

/-- EDIT_DMA at the Configuration Store (R40). -/
def ownEditDma : Owner := fun p payload s => editStaging (editDmaSet payload) p s

/-- EDIT_DMA_DROP at the Configuration Store (R41). -/
def ownEditDmaDrop : Owner := fun p payload s => editStaging (dropDmaSet payload) p s

/-- EDIT_NIGHT at the Configuration Store (R42). -/
def ownEditNight : Owner := fun p payload s => editStaging (editNightSet payload) p s

/-! ### Commit (R47, R48) -/

/-- The reasons of an INVALID answer, coded 1 to 6 (section 10.3). -/
inductive Invalid where
  | addressClash
  | unknownMeter
  | kind
  | terms
  | overuse
  | pool
  deriving DecidableEq, Repr

/-- The code of an INVALID reason (section 10.3). -/
def invalidCode : Invalid → Nat
  | .addressClash => 1
  | .unknownMeter => 2
  | .kind => 3
  | .terms => 4
  | .overuse => 5
  | .pool => 6

/-- The smallest key of a table whose entry fails a check. -/
def firstFailing {α : Type} (t : Tbl α) (fails : Nat → α → Bool) : Option Nat :=
  (t.find? (fun x => fails x.1 x.2)).map Prod.fst

/-- Check 1: the meter's address is also held by a meter of lower index. -/
def clashes (c : ConfigSet) (i : Nat) (e : MeterEntry) : Bool :=
  c.meters.any (fun x => decide (x.1 < i ∧ x.2.address = e.address))

/-- Check 2: a term or the pressure point names an empty place. -/
def namesEmpty (c : ConfigSet) (e : DistrictEntry) : Bool :=
  e.terms.any (fun x => (tget c.meters x.meter).isNone) ||
    e.pressurePoint.any (fun m => (tget c.meters m).isNone)

/-- Whether an index holds a PRESSURE meter. -/
def holdsPressure (c : ConfigSet) (m : Nat) : Bool :=
  match tget c.meters m with
  | some e =>
    match e.kind with
    | .pressure => true
    | .flow _ => false
  | none => false

/-- Whether an index holds a FLOW meter. -/
def holdsFlow (c : ConfigSet) (m : Nat) : Bool :=
  match tget c.meters m with
  | some e =>
    match e.kind with
    | .pressure => false
    | .flow _ => true
  | none => false

/-- Check 3: a term names a PRESSURE meter, or the pressure point a FLOW meter. -/
def wrongKind (c : ConfigSet) (e : DistrictEntry) : Bool :=
  e.terms.any (fun x => holdsPressure c x.meter) || e.pressurePoint.any (holdsFlow c)

/-- Check 4: no IN term, or a term list outside 1..8. -/
def badTerms (e : DistrictEntry) : Bool :=
  !e.terms.any (fun x => decide (x.sign = .inlet)) ||
    decide (e.terms.length < 1 ∨ 8 < e.terms.length)

/-- The number of districts one of whose terms satisfies a test. -/
def districtsWith (c : ConfigSet) (test : Term → Bool) : Nat :=
  c.districts.countP (fun x => x.2.terms.any test)

/-- Check 5: the meter appears twice in one district, in more than two districts, or in two districts with
the same sign. -/
def overused (c : ConfigSet) (m : Nat) : Bool :=
  c.districts.any (fun x => decide (2 ≤ x.2.terms.countP (fun y => decide (y.meter = m)))) ||
    decide (2 < districtsWith c (fun y => decide (y.meter = m))) ||
    decide (2 ≤ districtsWith c (fun y => decide (y = ⟨m, .inlet⟩))) ||
    decide (2 ≤ districtsWith c (fun y => decide (y = ⟨m, .outlet⟩)))

/-- The term slots a set uses (R30). -/
def slotsUsed (c : ConfigSet) : Nat := (c.districts.map (fun x => x.2.terms.length)).sum

/-- The first failure of the commit checks, with the index it reports (R47). -/
def validate (c : ConfigSet) : Option (Invalid × Nat) :=
  match firstFailing c.meters (clashes c) with
  | some i => some (.addressClash, i)
  | none =>
    match firstFailing c.districts (fun _ e => namesEmpty c e) with
    | some d => some (.unknownMeter, d)
    | none =>
      match firstFailing c.districts (fun _ e => wrongKind c e) with
      | some d => some (.kind, d)
      | none =>
        match firstFailing c.districts (fun _ e => badTerms e) with
        | some d => some (.terms, d)
        | none =>
          match firstFailing c.meters (fun m _ => overused c m) with
          | some m => some (.overuse, m)
          | none => if Config.poolSlots < slotsUsed c then some (.pool, 0) else none

/-- A commit that passes the checks: the staging set becomes pending, the hold ends, and in DAY and HALTED
the set is installed at once (R48). -/
def commitSet (p : Port) (h : Hold) (s : State) : State :=
  fireDue (installNow
    (s.setConfig { s.config with pending := some ⟨h.staging, p⟩, hold := none }))

/-- EDIT_COMMIT at the Configuration Store (R47, R48). -/
def ownEditCommit : Owner := fun p payload s =>
  match payload with
  | [] =>
    match heldBy s p with
    | none => (s, refusal .notHolder)
    | some h =>
      match validate h.staging with
      | some (why, i) => (s.setHold (some h.restart), ⟨.invalid, [oct (invalidCode why), oct i]⟩)
      | none =>
        let s1 := commitSet p h s
        (s1, ⟨.ok, [octFlag (installPhase s.calendar.cycle)] ++
          be16 s1.config.generation.toNat⟩)
  | _ => (s, refusal .format)

/-! ### CONFIG_READ (R51) -/

/-- The sets CONFIG_READ names. -/
inductive SetName where
  | active
  | pending
  | staging
  deriving DecidableEq, Repr

/-- The items CONFIG_READ names, an index with METER and DMA. -/
inductive ItemName where
  | meter (i : Nat)
  | dma (d : Nat)
  | night
  | summary
  deriving DecidableEq, Repr

/-- The set of a set code (section 10.5). -/
def setOfCode : Nat → Option SetName
  | 0 => some .active
  | 1 => some .pending
  | 2 => some .staging
  | _ => none

/-- The item of an item code with its index (section 10.5). -/
def itemOfCode (code index : Nat) : Option ItemName :=
  match code with
  | 0 => some (.meter index)
  | 1 => some (.dma index)
  | 2 => some .night
  | 3 => some .summary
  | _ => none

/-- Whether an item's index lies in range (R51). -/
def itemInRange : ItemName → Bool
  | .meter i => decide (i ≤ 255)
  | .dma d => decide (d ≤ 63)
  | .night | .summary => true

/-- An item of a set laid out, or the status of an empty place (R51). -/
def readItem (c : ConfigSet) : ItemName → Except Status (List Octet)
  | .meter i =>
    match tget c.meters i with
    | some e => .ok (layMeter i e)
    | none => .error .unknownMeter
  | .dma d =>
    match tget c.districts d with
    | some e => .ok (layDistrict d e)
    | none => .error .unknownDma
  | .night => .ok (layNight c.night)
  | .summary => .ok (be16 c.meters.length ++ [oct c.districts.length] ++ be16 (slotsUsed c))

/-- The answer of CONFIG_READ from a set that exists; `s'` is the state when it is OK. -/
def answerItem (generation : Generation) (c : ConfigSet) (item : ItemName) (s s' : State) :
    State × Answer :=
  match readItem c item with
  | .error x => (s, refusal x)
  | .ok os => (s', ⟨.ok, be16 generation.toNat ++ [1] ++ os⟩)

/-- CONFIG_READ at the Configuration Store (R51, R43). -/
def ownConfigRead : Owner := fun p payload s =>
  match payload with
  | [set, item, i1, i0] =>
    match setOfCode set.toNat, itemOfCode item.toNat (u16 i1 i0) with
    | some name, some it =>
      if !itemInRange it then (s, refusal .range)
      else
        match name with
        | .active => answerItem s.config.generation s.config.active it s s
        | .pending =>
          match s.config.pending with
          | none => (s, ⟨.ok, be16 s.config.generation.toNat ++ [0]⟩)
          | some pd => answerItem s.config.generation pd.config it s s
        | .staging =>
          match heldBy s p with
          | none => (s, refusal .notHolder)
          | some h =>
            answerItem s.config.generation h.staging it s (s.setHold (some h.restart))
    | _, _ => (s, refusal .format)
  | _ => (s, refusal .format)

end Sys2Proof.Machine
end

