-- ==== Sys2Proof/Machine/Service.lean ====
section
/-!
DEFINITION. The requests that act on a port's own state: EVENT_READ (R154), FLAG_CLEAR and FLAG_MASK (R169),
the port-settings item of PARAM_SET (R166), PART_STATUS (R167).
-/

namespace Sys2Proof.Machine

/-! ### EVENT_READ (R153, R154) -/

/-- A serial from which a read may start: that of an entry, or the next serial (R154). -/
def startable (q : EventQueue) (serial : Serial) : Bool :=
  decide (serial = q.next) || q.entries.any (fun e => decide (e.serial = serial))

/-- The entries from a cursor to the newest, oldest first (R153). -/
def entriesFrom (q : EventQueue) (cursor : Serial) : List Event :=
  q.entries.drop (q.entries.length - (q.next - cursor).toNat)

/-- The effect of a read of up to m entries from a cursor: the queue after and the entries taken (R154). -/
def takeEntries (q : EventQueue) (p : Port) (cursor : Serial) (m : Nat) : EventQueue × List Event :=
  let taken := (entriesFrom q cursor).take m
  ({ q with cursors := q.cursors.set p (cursor + BitVec.ofNat 32 taken.length) }, taken)

/-- The answer of an accepted EVENT_READ from a cursor. -/
def readEvents (p : Port) (cursor : Serial) (m : Nat) (s : State) : State × Answer :=
  let r := takeEntries s.events p cursor m
  let s1 := s.setEvents r.1
  (s1, ⟨.ok, [oct r.2.length] ++ r.2.flatMap layEvent ++
    [oct (s1.events.unread p), octFlag (s1.port p).lost, oct (s1.port p).lostCount]⟩)

/-- EVENT_READ at the Event Queue (R154). -/
def ownEventRead : Owner := fun p payload s =>
  match payload with
  | [m, form, s3, s2, s1, s0] =>
    if 1 < form.toNat then (s, refusal .format)
    else if m.toNat = 0 ∨ 8 < m.toNat then (s, refusal .range)
    else if form.toNat = 0 then readEvents p (s.events.cursors.get p) m.toNat s
    else
      let serial : Serial := BitVec.ofNat 32 (u32 s3 s2 s1 s0)
      if startable s.events serial then readEvents p serial m.toNat s
      else (s, ⟨.range, be32 s.events.oldest.toNat ++ be32 s.events.next.toNat⟩)
  | _ => (s, refusal .format)

/-! ### FLAG_CLEAR and FLAG_MASK (R156, R169) -/

/-- What FLAG_CLEAR does to its port: bit 1 clears LOST and the lost count, bit 3 clears LINK (R169). -/
def PortState.clearFlags (x : PortState) (bits : Octet) : PortState :=
  { x with
    lost := x.lost && !bits.getLsbD 1
    lostCount := if bits.getLsbD 1 then 0 else x.lostCount
    link := x.link && !bits.getLsbD 3 }

/-- FLAG_CLEAR (R169). -/
def ownFlagClear : Owner := fun p payload s =>
  match payload with
  | [bits] =>
    if 31 < bits.toNat then (s, refusal .range)
    else
      let s1 := s.setPort p ((s.port p).clearFlags bits)
      (s1, ⟨.ok, layFlags s1 p⟩)
  | _ => (s, refusal .format)

/-- FLAG_MASK (R169): the mask takes bits 0 to 3, bit 4 is ignored. -/
def ownFlagMask : Owner := fun p payload s =>
  match payload with
  | [bits] =>
    if 31 < bits.toNat then (s, refusal .range)
    else
      let s1 := s.setPort p { s.port p with mask := BitVec.ofNat 4 bits.toNat }
      (s1, ⟨.ok, layFlags s1 p⟩)
  | _ => (s, refusal .format)

/-! ### PARAM_SET, port settings (R164, R166) -/

/-- The port-settings item of PARAM_SET (R166). -/
def ownPortSettings : Owner := fun _ payload s =>
  match payload with
  | [item, port, addr, baud] =>
    if item.toNat ≠ 2 then (s, refusal .format)
    else if addr.toNat = 0x00 ∨ addr.toNat = 0xFF then (s, refusal .range)
    else
      match portOfCode port.toNat, baudOfCode baud.toNat with
      | some q, some b => (s.setPort q ((s.port q).storeSettings ⟨addr, b⟩), ⟨.ok, []⟩)
      | _, _ => (s, refusal .range)
  | _ => (s, refusal .format)

/-- A PARAM_SET frame that the daylight-saving row may take: its item code is not 2 (log 18). -/
def isDaylightSaving (f : Frame) : Bool :=
  ofKind 0x19 f && decide (f.payload.head? ≠ some 2)

/-- A PARAM_SET frame that the port-settings row may take: its item code is not 1 (log 18). -/
def isPortSettings (f : Frame) : Bool :=
  ofKind 0x19 f && decide (f.payload.head? ≠ some 1)

/-! ### PART_STATUS (R167) -/

/-- The phase codes (section 10.5). -/
def phaseCode : NightCycle → Nat
  | .halted => 0
  | .day _ => 1
  | .opened _ => 2
  | .grace _ => 3
  | .settling _ => 4

/-- The holder field: the port code, or 0xFF for none. -/
def holderCode (h : Option Hold) : Nat :=
  match h with
  | some x => portCode x.port
  | none => 0xFF

/-- The verdict codes. -/
def verdictCode : Verdict → Nat
  | .intact => 0
  | .lapsed => 1

/-- The backup state codes. -/
def backupCode : BackupState → Nat
  | .good => 0
  | .low => 1

/-- One port's eight octets of PART_STATUS. -/
def layPort (x : PortState) : List Octet :=
  [x.settings.unitAddr, oct (baudCode x.settings.baud)] ++ be16 x.noise ++ be16 x.discard ++
    be16 x.bitError

/-- PART_STATUS (R167). -/
def ownPartStatus : Owner := fun p payload s =>
  match payload with
  | [] =>
    (s, ⟨.ok, [oct (phaseCode s.calendar.cycle)] ++ layCurrentNight s.calendar.cycle ++
      [octFlag s.calendar.valid] ++ be16 s.config.generation.toNat ++
      [octFlag s.config.pending.isSome, oct (holderCode s.config.hold),
        oct (verdictCode s.retention.verdict), oct (backupCode s.retention.backup)] ++
      layPort s.ports.a ++ layPort s.ports.b ++ layPort s.ports.c ++ layFlags s p⟩)
  | _ => (s, refusal .format)

/-- A taken frame of an undefined kind: the Request Service's first check refuses it (R165). -/
def ownNothing : Owner := fun _ _ s => (s, refusal .format)

end Sys2Proof.Machine
end

