-- ==== Sys2Proof/Machine/Supply.lean ====
section
/-!
DEFINITION. Retention and start-up (chapter 11): the loss of main power, the backup monitor, the power-up and
the reset line.
-/

namespace Sys2Proof.Machine

/-- Every retained item takes its LAPSED value (R171, step 1). -/
def lapse (s : State) : State :=
  { s with
    intake := { s.intake with runtime := [] }
    config := { s.config with active := ConfigSet.lapsed, generation := 0, pending := none }
    calendar :=
      { s.calendar with
        t := 0, valid := false, rules := DstRules.lapsed, leftOut := [], brokenOff := .nothing }
    districts := []
    suspensions := []
    ports :=
      ⟨{ s.ports.a with settings := .lapsed .a }, { s.ports.b with settings := .lapsed .b },
        { s.ports.c with settings := .lapsed .c }⟩ }

/-- Every main-domain item but the night cycle's own takes its start-up value; the night cycle is emptied
for the entry that follows (R171, step 2), its closed window absent until that entry sets it (log 40). -/
def startMain (s : State) : State :=
  { s with
    intake := clearNight s.intake
    config := { s.config with hold := none }
    calendar :=
      { s.calendar with
        cycle := .halted, clockStepped := false, disturbed := false, closed := none, horizon := none,
        entryDue := false }
    settlement := none
    burst := ⟨[], [], []⟩
    history := []
    events := EventQueue.started
    ports := s.ports.map (fun x => PortState.started x.settings) }

/-- What the loss of the main domain's content leaves for the start-up to remember of its night (R76, R83, R172; log 39): a
night OPEN or GRACE is the interrupted one; one SETTLING is left out from now on, and the start-up goes on at a later
night. -/
def interruptNight (c : Calendar) : Calendar :=
  match c.cycle with
  | .opened p | .grace p => { c with brokenOff := .collecting p.date }
  | .settling p =>
    { c with
      leftOut := insertIdx c.leftOut p.date
      brokenOff := .settling p.date }
  | .halted | .day _ => { c with brokenOff := .nothing }

/-- A loss of the main domain's content: what the start-up must remember, then every item at its start-up value
(R83, R171; log 39). -/
def loseMain (s : State) : State := startMain (s.setCalendar (interruptNight s.calendar))

/-- Main power falls: the main domain loses its content, held here at its start-up values (log 10), and a
backup supply already below its threshold sets the latch (R170). -/
def losePower (s : State) : State :=
  (loseMain s).setRetention
    { s.retention with powered := false, latch := decide (s.retention.backup = .low) }

/-- BACKUP_LOW is appended at a start-up with the backup state LOW (R173). -/
def appendBackupLow (s : State) : State :=
  match s.retention.backup with
  | .low => s.append .backupLow 0 (eventNight s) 0
  | .good => s

/-- RETENTION_LAPSED is appended at a LAPSED power-up (R171, step 4). -/
def appendLapsed (s : State) : State := s.append .retentionLapsed 0 (eventNight s) 0

/-- The verdict of a power-up (R171, step 1). -/
def verdictOf (latch : Bool) : Verdict := if latch then .lapsed else .intact

/-- The retained items as step 1 of a power-up leaves them (R171). -/
def judgeRetention (b : BackupState) (s : State) : State :=
  (if s.retention.latch then lapse s else s).setRetention
    ⟨true, verdictOf s.retention.latch, false, b⟩

/-- A power-up (R171): verdict, main domain, night cycle, events, installation. -/
def returnPower (b : BackupState) (s : State) : State :=
  let s1 := enterStartUp (startMain (judgeRetention b s))
  let s2 := if s.retention.latch then appendLapsed s1 else s1
  fireDue (installNow (appendBackupLow s2))

/-- A start-up by the reset line (R172). -/
def resetMain (s : State) : State :=
  fireDue (installNow (appendBackupLow (enterStartUp (loseMain s))))

/-- The backup state falls to LOW while powered (R173). -/
def backupFalls (s : State) : State :=
  match s.retention.backup with
  | .good => appendBackupLow (s.setRetention { s.retention with backup := .low })
  | .low => s

/-- The backup state returns to GOOD while powered (R173). -/
def backupReturns (s : State) : State := s.setRetention { s.retention with backup := .good }

/-- The backup monitor sets the latch (R170). -/
def setLatch (s : State) : State := s.setRetention { s.retention with latch := true }

end Sys2Proof.Machine
end

