-- ==== Sys2Proof/Machine/RequestMeanings.lean ====
section
/-!
DEFINITION. The meanings of the request rows: each takes the oldest waiting frame of its port, when that is
a frame of its kind and no response of the port is being sent, and serves it (R160, R161, R165). Otherwise
the event is not due and nothing happens (log 1).
-/

namespace Sys2Proof.Machine

/-- The outcome of every meaning. -/
abbrev Result := Host.Outcome State Fault Refusal

/-- READINGS: the port's oldest waiting frame is taken and served by Reading Intake (R8 to R21). -/
def execReadings (p : Port) (s : State) : Result :=
  .next (serve (ofKind 0x01) ownReadings p s)

/-- TIME_SET (R55). -/
def execTimeSet (p : Port) (s : State) : Result :=
  .next (serve (ofKind 0x02) ownTimeSet p s)

/-- TIME_GET (R58). -/
def execTimeGet (p : Port) (s : State) : Result :=
  .next (serve (ofKind 0x03) ownTimeGet p s)

/-- EDIT_OPEN (R36). -/
def execEditOpen (p : Port) (s : State) : Result :=
  .next (serve (ofKind 0x04) ownEditOpen p s)

/-- EDIT_METER (R38). -/
def execEditMeter (p : Port) (s : State) : Result :=
  .next (serve (ofKind 0x05) ownEditMeter p s)

/-- EDIT_METER_DROP (R39). -/
def execEditMeterDrop (p : Port) (s : State) : Result :=
  .next (serve (ofKind 0x06) ownEditMeterDrop p s)

/-- EDIT_DMA (R40). -/
def execEditDma (p : Port) (s : State) : Result :=
  .next (serve (ofKind 0x07) ownEditDma p s)

/-- EDIT_DMA_DROP (R41). -/
def execEditDmaDrop (p : Port) (s : State) : Result :=
  .next (serve (ofKind 0x08) ownEditDmaDrop p s)

/-- EDIT_NIGHT (R42). -/
def execEditNight (p : Port) (s : State) : Result :=
  .next (serve (ofKind 0x09) ownEditNight p s)

/-- EDIT_COMMIT (R47, R48). -/
def execEditCommit (p : Port) (s : State) : Result :=
  .next (serve (ofKind 0x0A) ownEditCommit p s)

/-- EDIT_DISCARD (R45). -/
def execEditDiscard (p : Port) (s : State) : Result :=
  .next (serve (ofKind 0x0B) ownEditDiscard p s)

/-- CONFIG_READ (R51). -/
def execConfigRead (p : Port) (s : State) : Result :=
  .next (serve (ofKind 0x0C) ownConfigRead p s)

/-- SUSPEND (R138, R139). -/
def execSuspend (p : Port) (s : State) : Result :=
  .next (serve (ofKind 0x0D) ownSuspend p s)

/-- RESUME (R140). -/
def execResume (p : Port) (s : State) : Result :=
  .next (serve (ofKind 0x0E) ownResume p s)

/-- SUSPEND_LIST (R144). -/
def execSuspendList (p : Port) (s : State) : Result :=
  .next (serve (ofKind 0x0F) ownSuspendList p s)

/-- LEAK_ACK (R113). -/
def execLeakAck (p : Port) (s : State) : Result :=
  .next (serve (ofKind 0x10) ownLeakAck p s)

/-- REBASE (R115). -/
def execRebase (p : Port) (s : State) : Result :=
  .next (serve (ofKind 0x11) ownRebase p s)

/-- RELEARN (R116). -/
def execRelearn (p : Port) (s : State) : Result :=
  .next (serve (ofKind 0x12) ownRelearn p s)

/-- DMA_STATUS (R118). -/
def execDmaStatus (p : Port) (s : State) : Result :=
  .next (serve (ofKind 0x13) ownDmaStatus p s)

/-- METER_STATUS (R27). -/
def execMeterStatus (p : Port) (s : State) : Result :=
  .next (serve (ofKind 0x14) ownMeterStatus p s)

/-- NIGHT_READ (R150). -/
def execNightRead (p : Port) (s : State) : Result :=
  .next (serve (ofKind 0x15) ownNightRead p s)

/-- EVENT_READ (R154). -/
def execEventRead (p : Port) (s : State) : Result :=
  .next (serve (ofKind 0x16) ownEventRead p s)

/-- FLAG_CLEAR (R169). -/
def execFlagClear (p : Port) (s : State) : Result :=
  .next (serve (ofKind 0x17) ownFlagClear p s)

/-- FLAG_MASK (R169). -/
def execFlagMask (p : Port) (s : State) : Result :=
  .next (serve (ofKind 0x18) ownFlagMask p s)

/-- PARAM_SET, the daylight-saving item (R59, R62, R166). -/
def execParamSetDaylightSaving (p : Port) (s : State) : Result :=
  .next (serve isDaylightSaving ownDaylightSaving p s)

/-- PARAM_SET, the port-settings item (R164, R166). -/
def execParamSetPortSettings (p : Port) (s : State) : Result :=
  .next (serve isPortSettings ownPortSettings p s)

/-- PART_STATUS (R167). -/
def execPartStatus (p : Port) (s : State) : Result :=
  .next (serve (ofKind 0x1A) ownPartStatus p s)

/-- UNKNOWN_KIND: a taken frame whose kind is not defined is refused FORMAT (R165). -/
def execUnknownKind (p : Port) (s : State) : Result :=
  .next (serve (fun f => !knownKind f.kind) ownNothing p s)

end Sys2Proof.Machine
end

