-- ==== Sys2Proof/Machine/LineMeanings.lean ====
section
/-!
DEFINITION. The meanings of the line rows (chapter 9). The line's events need main power; an event that is
not due changes nothing (log 1).
-/

namespace Sys2Proof.Machine

/-- An event of the main domain, which does not happen while main power is absent (R170). -/
def whenPowered (f : State → State) (s : State) : State := if s.retention.powered then f s else s

/-- CHARACTER_RECEIVED (R158). -/
def execCharacterReceived (p : Port) (idle : Bool) (samples : Samples) (s : State) : Result :=
  .next (whenPowered (fun r => r.character p idle samples) s)

/-- FRAME_END (R159, R160). -/
def execFrameEnd (p : Port) (s : State) : Result := .next (whenPowered (fun r => r.endFrame p) s)

/-- The response of a port has been sent; due while one is being sent (R161). -/
def finishResponse (p : Port) (s : State) : State :=
  match (s.port p).transmitter with
  | some _ => s.transmitterFree p
  | none => s

/-- RESPONSE_SENT (R161). -/
def execResponseSent (p : Port) (s : State) : Result := .next (whenPowered (finishResponse p) s)

/-- A mismatch on port C; due while port C is sending (R162). -/
def mismatch (s : State) : State :=
  match (s.port .c).transmitter with
  | some _ => s.abandonEcho
  | none => s

/-- ECHO_MISMATCH (R162). -/
def execEchoMismatch (s : State) : Result := .next (whenPowered mismatch s)

/-- A port's own state at its port reset (R163, R168). -/
def PortState.broken (x : PortState) : PortState :=
  { x with
    receiver := ⟨none, true⟩, queue := [], lost := false, link := false, lostCount := 0, mask := 0xF }

/-- The port reset of port p (R163, R46): the port's LOST and lost count are cleared before STAGING_DROPPED is
appended, whose append may set them again (log 35). -/
def breakPort (p : Port) (s : State) : State :=
  let s1 := s.transmitterFree p
  releaseHold p (s1.setPort p (s1.port p).broken)

/-- PORT_RESET (R163). -/
def execPortReset (p : Port) (s : State) : Result := .next (whenPowered (breakPort p) s)

/-- PORT_SETTINGS_APPLIED (R164), due once the PARAM_SET response has finished on port B and port p is not
transmitting. -/
def execPortSettingsApplied (p : Port) (s : State) : Result :=
  .next (whenPowered (fun r => r.adoptDue p) s)

end Sys2Proof.Machine
end

