-- ==== Sys2Proof/Machine/NightMeanings.lean ====
section
/-!
DEFINITION. The meanings of the calendar, settlement, burst and hold-timer rows (chapters 2 to 6). An event
that is not due changes nothing (log 1).
-/

namespace Sys2Proof.Machine

/-- CALENDAR_TICK: the oscillator is kept in the retention domain and counts on without main power (R53). -/
def execCalendarTick (s : State) : Result := .next (tick s)

/-- CALENDAR_RANGE_END: the tick, when t stands at the end of the calendar's range (R54; log 6). -/
def execCalendarRangeEnd (s : State) : Result :=
  .next (if Config.lastSecond ≤ s.calendar.t then tick s else s)

/-- The planned night's window start is reached (R67, R68). -/
def reachWindowStart (s : State) : State :=
  match s.calendar.cycle with
  | .day (some p) => reachBoundary p.startsAt s
  | .day none | .halted | .opened _ | .grace _ | .settling _ => s

/-- WINDOW_START (R68; log 5). -/
def execWindowStart (s : State) : Result := .next (whenPowered reachWindowStart s)

/-- The current night's window end is reached (R67, R69). -/
def reachWindowEnd (s : State) : State :=
  match s.calendar.cycle with
  | .opened p => reachBoundary p.endsAt s
  | .day _ | .halted | .grace _ | .settling _ => s

/-- WINDOW_END (R69; log 5). -/
def execWindowEnd (s : State) : Result := .next (whenPowered reachWindowEnd s)

/-- The current night's grace end is reached (R67, R70). -/
def reachGraceEnd (s : State) : State :=
  match s.calendar.cycle with
  | .grace p => reachBoundary p.closesAt s
  | .day _ | .halted | .opened _ | .settling _ => s

/-- GRACE_END (R70; log 5). -/
def execGraceEnd (s : State) : Result := .next (whenPowered reachGraceEnd s)

/-- INFILL_PASS (R87). -/
def execInfillPass (s : State) : Result := .next (whenPowered infillEvent s)

/-- HAND_OVER (R101). -/
def execHandOver (s : State) : Result := .next (whenPowered handOverEvent s)

/-- SETTLEMENT_COMPLETE (R81). -/
def execSettlementComplete (s : State) : Result := .next (whenPowered completeEvent s)

/-- SETTLEMENT_END (R71). -/
def execSettlementEnd (s : State) : Result := .next (whenPowered settlementEndEvent s)

/-- BURST_ENTRY (R112). -/
def execBurstEntry (d : Nat) (s : State) : Result := .next (whenPowered (takeHeld d) s)

/-- The hold's expiry, due while its timer stands at 0: a request taken first that restarts the timer keeps it from
happening (R44; log 4). -/
def expireDue (s : State) : State :=
  match s.config.hold with
  | none => s
  | some h => if h.timer = 0 then expireHold s else s

/-- HOLD_TIMER_EXPIRY (R43, R44; log 4). -/
def execHoldTimerExpiry (s : State) : Result := .next (whenPowered expireDue s)

/-- One second of the main domain's own time base: a hold timer that runs counts down, and one that has run to 0
expires (R43; logs 3 and 4). -/
def secondPasses (s : State) : State :=
  match s.config.hold with
  | none => s
  | some h =>
    if h.timer = 0 then expireHold s else s.setHold (some { h with timer := h.timer - 1 })

end Sys2Proof.Machine
end

