-- ==== Sys2Proof/Machine/SupplyMeanings.lean ====
section
/-!
DEFINITION. The meanings of the supply rows (chapter 11). An event that is not due changes nothing (log 1).
-/

namespace Sys2Proof.Machine

/-- POWER_UP, due while main power is absent (R171). -/
def execPowerUp (b : BackupState) (s : State) : Result :=
  .next (if s.retention.powered then s else returnPower b s)

/-- RESET_LINE (R172). -/
def execResetLine (s : State) : Result := .next (whenPowered resetMain s)

/-- MAIN_POWER_LOSS (R170). -/
def execMainPowerLoss (s : State) : Result := .next (whenPowered losePower s)

/-- BACKUP_LATCH_SET, due while main power is absent (R170). -/
def execBackupLatchSet (s : State) : Result := .next (if s.retention.powered then s else setLatch s)

/-- BACKUP_GOOD_TO_LOW (R173). -/
def execBackupGoodToLow (s : State) : Result := .next (whenPowered backupFalls s)

/-- BACKUP_LOW_TO_GOOD (R173). -/
def execBackupLowToGood (s : State) : Result := .next (whenPowered backupReturns s)

end Sys2Proof.Machine
end

