-- ==== Sys2Proof/Machine/Dispatch.lean ====
section
/-!
DEFINITION. One arm for each constructor of Instr, each one direct call of that command's meaning.
-/

namespace Sys2Proof.Machine

def exec (i : Instr) (s : State) : Host.Outcome State Fault Refusal :=
  match i with
  | .readings p => Sys2Proof.Machine.execReadings p s
  | .timeSet p => Sys2Proof.Machine.execTimeSet p s
  | .timeGet p => Sys2Proof.Machine.execTimeGet p s
  | .editOpen p => Sys2Proof.Machine.execEditOpen p s
  | .editMeter p => Sys2Proof.Machine.execEditMeter p s
  | .editMeterDrop p => Sys2Proof.Machine.execEditMeterDrop p s
  | .editDma p => Sys2Proof.Machine.execEditDma p s
  | .editDmaDrop p => Sys2Proof.Machine.execEditDmaDrop p s
  | .editNight p => Sys2Proof.Machine.execEditNight p s
  | .editCommit p => Sys2Proof.Machine.execEditCommit p s
  | .editDiscard p => Sys2Proof.Machine.execEditDiscard p s
  | .configRead p => Sys2Proof.Machine.execConfigRead p s
  | .suspend p => Sys2Proof.Machine.execSuspend p s
  | .resume p => Sys2Proof.Machine.execResume p s
  | .suspendList p => Sys2Proof.Machine.execSuspendList p s
  | .leakAck p => Sys2Proof.Machine.execLeakAck p s
  | .rebase p => Sys2Proof.Machine.execRebase p s
  | .relearn p => Sys2Proof.Machine.execRelearn p s
  | .dmaStatus p => Sys2Proof.Machine.execDmaStatus p s
  | .meterStatus p => Sys2Proof.Machine.execMeterStatus p s
  | .nightRead p => Sys2Proof.Machine.execNightRead p s
  | .eventRead p => Sys2Proof.Machine.execEventRead p s
  | .flagClear p => Sys2Proof.Machine.execFlagClear p s
  | .flagMask p => Sys2Proof.Machine.execFlagMask p s
  | .paramSetDaylightSaving p => Sys2Proof.Machine.execParamSetDaylightSaving p s
  | .paramSetPortSettings p => Sys2Proof.Machine.execParamSetPortSettings p s
  | .partStatus p => Sys2Proof.Machine.execPartStatus p s
  | .unknownKind p => Sys2Proof.Machine.execUnknownKind p s
  | .frameEnd p => Sys2Proof.Machine.execFrameEnd p s
  | .responseSent p => Sys2Proof.Machine.execResponseSent p s
  | .echoMismatch => Sys2Proof.Machine.execEchoMismatch s
  | .portReset p => Sys2Proof.Machine.execPortReset p s
  | .portSettingsApplied p => Sys2Proof.Machine.execPortSettingsApplied p s
  | .calendarTick => Sys2Proof.Machine.execCalendarTick s
  | .calendarRangeEnd => Sys2Proof.Machine.execCalendarRangeEnd s
  | .windowStart => Sys2Proof.Machine.execWindowStart s
  | .windowEnd => Sys2Proof.Machine.execWindowEnd s
  | .graceEnd => Sys2Proof.Machine.execGraceEnd s
  | .infillPass => Sys2Proof.Machine.execInfillPass s
  | .handOver => Sys2Proof.Machine.execHandOver s
  | .settlementComplete => Sys2Proof.Machine.execSettlementComplete s
  | .settlementEnd => Sys2Proof.Machine.execSettlementEnd s
  | .burstEntry d => Sys2Proof.Machine.execBurstEntry d s
  | .holdTimerExpiry => Sys2Proof.Machine.execHoldTimerExpiry s
  | .powerUp b => Sys2Proof.Machine.execPowerUp b s
  | .resetLine => Sys2Proof.Machine.execResetLine s
  | .mainPowerLoss => Sys2Proof.Machine.execMainPowerLoss s
  | .backupLatchSet => Sys2Proof.Machine.execBackupLatchSet s
  | .backupGoodToLow => Sys2Proof.Machine.execBackupGoodToLow s
  | .backupLowToGood => Sys2Proof.Machine.execBackupLowToGood s
  | .characterReceived p idle samples => Sys2Proof.Machine.execCharacterReceived p idle samples s

end Sys2Proof.Machine
end

