-- ==== Sys2Proof/Safety.lean ====
section
/-!
DEFINITION. What counts as a safe state, in the terms the statements use: the laws the manual states of each
block, and the words the statements share.
-/

namespace Sys2Proof.Machine

/-! ### The laws of the blocks -/

/-- The law of the queue (R151, R152): at most 128 entries, consecutive serials ending before the next serial,
and each cursor between the oldest entry and one past the newest. -/
def EventQueue.Lawful (q : EventQueue) : Prop :=
  q.entries.length ≤ 128 ∧
  (∀ i (h : i < q.entries.length),
    q.entries[i].serial = q.next - BitVec.ofNat 32 (q.entries.length - i)) ∧
  ∀ p, (q.next - q.cursors.get p).toNat ≤ q.entries.length

/-- The limits of one port (R156, R158, R159, R160, R164): at most 2 waiting requests, at most 256 octets
assembled, counts that hold at 65535, a lost count that holds at 255 and is not 0 exactly while LOST is set,
unit addresses 0x01..0xFE. -/
def PortState.Lawful (x : PortState) : Prop :=
  x.queue.length ≤ 2 ∧ (∀ f ∈ x.receiver.frame, f.octets.length ≤ 256) ∧
  x.noise ≤ 65535 ∧ x.discard ≤ 65535 ∧ x.bitError ≤ 65535 ∧ x.lostCount ≤ 255 ∧
  (x.lost = true ↔ 0 < x.lostCount) ∧
  (1 ≤ x.settings.unitAddr.toNat ∧ x.settings.unitAddr.toNat ≤ 0xFE) ∧
  1 ≤ x.line.unitAddr.toNat ∧ x.line.unitAddr.toNat ≤ 0xFE

/-- The law of the link ports: each port within its limits, and no bit errors counted on ports A and B
(R162). -/
def PortsLawful (s : State) : Prop :=
  (∀ p, (s.port p).Lawful) ∧ (s.port .a).bitError = 0 ∧ (s.port .b).bitError = 0

/-- A plan whose boundaries stand in order and which R64 admits. -/
def NightPlan.Lawful (p : NightPlan) : Prop :=
  p.window + p.length ≤ p.graceEnd ∧ p.closesAt ≤ 3155756400

/-- The boundary ahead of a phase has not been reached by t (R67, R72), under a plan R64 admits. -/
def NothingDue (c : NightCycle) (t : Nat) : Prop :=
  match c with
  | .day (some p) => p.Lawful ∧ t < 900 * p.window
  | .opened p => p.Lawful ∧ t < 900 * (p.window + p.length)
  | .grace p => p.Lawful ∧ t < 900 * p.graceEnd
  | .halted | .day none | .settling _ => True

/-- The phases a calendar's validity admits while main power is present (R66): INVALID only HALTED and
SETTLING, VALID every phase but HALTED. -/
def PhaseFits (valid : Bool) (c : NightCycle) : Prop :=
  match c with
  | .halted => valid = false
  | .settling _ => True
  | .day _ | .opened _ | .grace _ => valid = true

/-- The law of the night cycle (R53, R64, R66, R67, R72). -/
def CycleLawful (s : State) : Prop :=
  s.calendar.t ≤ 3155759999 ∧ NothingDue s.calendar.cycle s.calendar.t ∧
  (s.retention.powered = true → PhaseFits s.calendar.valid s.calendar.cycle) ∧
  (s.retention.powered = false → s.calendar.cycle = .halted)

/-- The Settlement Unit is RUNNING only in SETTLING, for the night being settled, with no more HIGH results
than assessed ones (R78). -/
def RunLawful (s : State) : Prop :=
  ∀ run ∈ s.settlement,
    (∃ p, s.calendar.cycle = .settling p ∧ run.date = p.date ∧ run.window = p.window ∧
      run.length = p.length) ∧ run.high ≤ run.assessed

/-- The law of the history (R146, R147): at most 32 records in strictly increasing night-date order, none
later than the district's last settled night. -/
def HistoryLawful (s : State) : Prop :=
  ∀ d, (ringOf s.history d).length ≤ 32 ∧
    (ringOf s.history d).Pairwise (fun x y => x.date < y.date) ∧
    ∀ x ∈ ringOf s.history d,
      ∃ r n, tget s.districts d = some r ∧ r.lastSettled = some n ∧ x.date ≤ n

/-- The law of alarm states for one district (R104). -/
def DistrictRuntime.Lawful (e : DistrictEntry) (r : DistrictRuntime) : Prop :=
  match r.alarm with
  | .learning =>
    r.record = none ∧ r.learnCount < e.learnNights ∧ r.highCount = 0 ∧ r.normalCount = 0
  | .quiet =>
    r.baseline.isSome ∧ r.record = none ∧ r.learnCount = 0 ∧ r.highCount = 0 ∧ r.normalCount = 0
  | .watch =>
    r.baseline.isSome ∧ r.record = none ∧ r.learnCount = 0 ∧ 1 ≤ r.highCount ∧
      r.highCount < e.confirmNights ∧ r.normalCount = 0
  | .leak | .standing =>
    r.baseline.isSome ∧ r.record.isSome ∧ r.learnCount = 0 ∧ r.highCount = 0 ∧
      r.normalCount < e.clearNights

/-- The night counts of every district entry of a set lie in their ranges (R28, R40). -/
def ConfigSet.CountsInRange (c : ConfigSet) : Prop :=
  ∀ d e, tget c.districts d = some e →
    1 ≤ e.confirmNights ∧ 1 ≤ e.clearNights ∧ 1 ≤ e.learnNights

/-- The law of alarm states over the whole table (R104), with the ranges of the night counts in every set
that an installation could make active. -/
def AlarmsLawful (s : State) : Prop :=
  s.config.active.CountsInRange ∧ (∀ pd ∈ s.config.pending, pd.config.CountsInRange) ∧
  (∀ h ∈ s.config.hold, h.staging.CountsInRange) ∧
  ∀ d e r, tget s.config.active.districts d = some e → tget s.districts d = some r → r.Lawful e

/-- What a committed set has (R47): addresses held once; every term a FLOW meter of the set and every pressure
point a PRESSURE meter; 1 to 8 terms a district, at least one IN, no meter twice; a meter of two districts with
opposite signs; at most 384 term slots. -/
def ConfigSet.Lawful (c : ConfigSet) : Prop :=
  (∀ x ∈ c.meters, ∀ y ∈ c.meters, x.2.address = y.2.address → x.1 = y.1) ∧
  (∀ x ∈ c.districts,
    (∀ y ∈ x.2.terms, ∃ e w, tget c.meters y.meter = some e ∧ e.kind = .flow w) ∧
    (∀ m ∈ x.2.pressurePoint, ∃ e, tget c.meters m = some e ∧ e.kind = .pressure) ∧
    1 ≤ x.2.terms.length ∧ x.2.terms.length ≤ 8 ∧ (∃ y ∈ x.2.terms, y.sign = .inlet) ∧
    (x.2.terms.map Term.meter).Nodup) ∧
  (∀ x ∈ c.districts, ∀ y ∈ c.districts, x.1 ≠ y.1 →
    ∀ a ∈ x.2.terms, ∀ b ∈ y.2.terms, a.meter = b.meter → a.sign ≠ b.sign) ∧
  (c.districts.map (fun x => x.2.terms.length)).sum ≤ 384

/-- The law of the active set, and of a pending set (R47, R48). -/
def SetsLawful (s : State) : Prop :=
  s.config.active.Lawful ∧ ∀ pd ∈ s.config.pending, pd.config.Lawful

/-- The law of the list (R137): at most 16 entries, in strictly rising meter order, each for a meter of the
active set. Its third part, an until-night later than the last settled night, does not outlast a re-entry of the
calendar at an earlier date, under the reference night of R138, and is left out (log 37). -/
def SuspensionsLawful (s : State) : Prop :=
  s.suspensions.length ≤ 16 ∧ tableWf s.suspensions = true ∧
  ∀ m x, tget s.suspensions m = some x → (tget s.config.active.meters m).isSome

/-- The law of the hold (R36, R43): only port B or C holds it, its timer at most 300 seconds, at 0 once it has run
out and the expiry is due. -/
def HoldLawful (s : State) : Prop :=
  ∀ h ∈ s.config.hold, h.port ≠ .a ∧ h.timer ≤ 300

/-- The law of the bound (R99): slot values as intake files them (section 4.6's ranges), at most 8 terms a district
in every set a night can be settled under, and every baseline and recorded normalised leakage or baseline at most the
normalisation bound. -/
def BoundLawful (s : State) : Prop :=
  (∀ m k v, (slotAt s.intake.store m k = .filled v ∨ slotAt s.intake.store m k = .estimated v) →
    v ≤ 65534) ∧
  (∀ x ∈ s.config.active.districts, x.2.terms.length ≤ 8) ∧
  (∀ pd ∈ s.config.pending, ∀ x ∈ pd.config.districts, x.2.terms.length ≤ 8) ∧
  (∀ x ∈ s.districts, ∀ b ∈ x.2.baseline, b ≤ 1186280596) ∧
  ∀ x ∈ s.history, ∀ r ∈ x.2,
    (∀ l ∈ r.lnorm, l ≤ 1186280596) ∧ ∀ b ∈ r.baselineAfter, b ≤ 1186280596

/-- A burst entry is held only for a district whose burst-raised mark is set, in OPEN or GRACE, naming the night
that is current (R70, R131, R132). -/
def BurstLawful (s : State) : Prop :=
  ∀ d n, tget s.burst.held d = some n →
    d ∈ s.burst.raised ∧
    ∃ p, (s.calendar.cycle = .opened p ∨ s.calendar.cycle = .grace p) ∧ p.date = n

/-- No night is planned or current whose settlement a loss of main power or the reset line has ended (R83; log 39). -/
def NightsLawful (s : State) : Prop :=
  ∀ p, carriedPlan s.calendar.cycle = some p → p.date ∉ s.calendar.leftOut

/-- Every keyed table of a configuration set in canonical form. -/
def ConfigSet.Canonical (c : ConfigSet) : Prop :=
  tableWf c.meters = true ∧ tableWf c.districts = true

/-- Every keyed table and index set of the state in canonical form. -/
def Canonical (s : State) : Prop :=
  s.config.active.Canonical ∧ (∀ pd ∈ s.config.pending, pd.config.Canonical) ∧
  (∀ h ∈ s.config.hold, h.staging.Canonical) ∧
  tableWf s.intake.runtime = true ∧ storeWf s.intake.store = true ∧ idxWf s.intake.heard = true ∧
  idxWf s.intake.suspended = true ∧ idxWf s.intake.rangeReported = true ∧ idxWf s.calendar.leftOut = true ∧
  tableWf s.districts = true ∧ tableWf s.suspensions = true ∧ tableWf s.history = true ∧
  tableWf s.burst.marks = true ∧ idxWf s.burst.raised = true ∧ tableWf s.burst.held = true

/-! ### Words the statements share -/

/-- Port p may take the frame f, addressed to it alone, leaving `rest` waiting (R160). -/
def ReadyToTake (s : State) (p : Port) (f : Frame) (rest : List Frame) : Prop :=
  s.retention.powered = true ∧ (s.port p).transmitter = none ∧ (s.port p).queue = f :: rest ∧
  f.addr ≠ 0xFF

/-- The state in which a taken request has been served as `r` and its response, with the unit address as it
stood when the frame was taken, has begun (R161). -/
def replied (s : State) (p : Port) (f : Frame) (r : State) (status : Status) (payload : List Octet) :
    State :=
  r.setPort p ((r.port p).respond p
    ⟨(s.port p).settings.unitAddr, f.kind ||| 0x80, f.tag, status, payload⟩)

/-- The kind code of a request row, with its port; PARAM_SET has two rows (section 10.2). -/
def requestOf (i : Instr) : Option (Port × Nat) :=
  match i with
  | .readings p => some (p, 0x01)
  | .timeSet p => some (p, 0x02)
  | .timeGet p => some (p, 0x03)
  | .editOpen p => some (p, 0x04)
  | .editMeter p => some (p, 0x05)
  | .editMeterDrop p => some (p, 0x06)
  | .editDma p => some (p, 0x07)
  | .editDmaDrop p => some (p, 0x08)
  | .editNight p => some (p, 0x09)
  | .editCommit p => some (p, 0x0A)
  | .editDiscard p => some (p, 0x0B)
  | .configRead p => some (p, 0x0C)
  | .suspend p => some (p, 0x0D)
  | .resume p => some (p, 0x0E)
  | .suspendList p => some (p, 0x0F)
  | .leakAck p => some (p, 0x10)
  | .rebase p => some (p, 0x11)
  | .relearn p => some (p, 0x12)
  | .dmaStatus p => some (p, 0x13)
  | .meterStatus p => some (p, 0x14)
  | .nightRead p => some (p, 0x15)
  | .eventRead p => some (p, 0x16)
  | .flagClear p => some (p, 0x17)
  | .flagMask p => some (p, 0x18)
  | .paramSetDaylightSaving p => some (p, 0x19)
  | .paramSetPortSettings p => some (p, 0x19)
  | .partStatus p => some (p, 0x1A)
  | .unknownKind _ | .frameEnd _ | .responseSent _ | .echoMismatch | .portReset _
  | .portSettingsApplied _ | .calendarTick | .calendarRangeEnd | .windowStart | .windowEnd
  | .graceEnd | .infillPass | .handOver | .settlementComplete | .settlementEnd | .burstEntry _
  | .holdTimerExpiry | .powerUp _ | .resetLine | .mainPowerLoss | .backupLatchSet
  | .backupGoodToLow | .backupLowToGood | .characterReceived _ _ _ => none

/-- The roles of section 10.2's table: the ports that may send each kind. -/
def roleTable (k : Nat) : List Port :=
  match k with
  | 0x01 => [.a, .b]
  | 0x02 => [.b]
  | 0x03 => [.a, .b, .c]
  | 0x04 | 0x05 | 0x06 | 0x07 | 0x08 | 0x09 | 0x0A | 0x0B => [.b, .c]
  | 0x0C => [.a, .b, .c]
  | 0x0D | 0x0E => [.b, .c]
  | 0x0F => [.a, .b, .c]
  | 0x10 => [.b, .c]
  | 0x11 | 0x12 => [.b]
  | 0x13 | 0x14 | 0x15 | 0x16 | 0x17 | 0x18 => [.a, .b, .c]
  | 0x19 => [.b]
  | 0x1A => [.a, .b, .c]
  | _ => []

/-- The row may take the frame, where a row of PARAM_SET is asked about: its item code is not the other row's
(log 18). -/
def ItemFits (i : Instr) (f : Frame) : Prop :=
  match i with
  | .paramSetDaylightSaving _ => f.payload.head? ≠ some 2
  | .paramSetPortSettings _ => f.payload.head? ≠ some 1
  | _ => True

/-- Port p has no frame that the Request Service could take as one of `mine`: main power is absent, a response is being
sent, or the oldest waiting frame, if any, is not one of them (R160). -/
def NothingToTake (s : State) (p : Port) (mine : Frame → Prop) : Prop :=
  s.retention.powered = false ∨ (s.port p).transmitter ≠ none ∨
    ∀ f ∈ (s.port p).queue.head?, ¬ mine f

/-- The event of a command does not happen in a state: the manual's condition for it does not hold. A command taken then
changes nothing (log 1). A character has none of its own but main power. -/
def NotDue (i : Instr) (s : State) : Prop :=
  let off : Prop := s.retention.powered = false
  match i with
  | .calendarTick => False
  | .calendarRangeEnd => s.calendar.t < 3155759999
  | .powerUp _ | .backupLatchSet => s.retention.powered = true
  | .portReset _ | .resetLine | .mainPowerLoss | .characterReceived _ _ _ => off
  | .unknownKind p => NothingToTake s p (fun f => f.kind.toNat = 0 ∨ 0x1A < f.kind.toNat)
  | .frameEnd p => off ∨ (p = .c ∧ (s.port .c).transmitter ≠ none)
  | .responseSent p => off ∨ (s.port p).transmitter = none
  | .echoMismatch => off ∨ (s.port .c).transmitter = none
  | .portSettingsApplied p => off ∨ (s.port p).change ≠ .ready ∨ (s.port p).transmitter ≠ none
  | .windowStart =>
    off ∨ ∀ n, s.calendar.cycle = .day (some n) → s.calendar.t + 1 < 900 * n.window
  | .windowEnd =>
    off ∨ ∀ n, s.calendar.cycle = .opened n → s.calendar.t + 1 < 900 * (n.window + n.length)
  | .graceEnd => off ∨ ∀ n, s.calendar.cycle = .grace n → s.calendar.t + 1 < 900 * n.graceEnd
  | .infillPass => off ∨ ∀ run ∈ s.settlement, run.infilled = true
  | .handOver => off ∨ ∀ run ∈ s.settlement, run.infilled = true → run.remaining = []
  | .settlementComplete => off ∨ ∀ run ∈ s.settlement, run.infilled = true → run.remaining ≠ []
  | .settlementEnd => off ∨ (∀ n, s.calendar.cycle ≠ .settling n) ∨ s.settlement ≠ none
  | .burstEntry d => off ∨ tget s.burst.held d = none
  | .holdTimerExpiry => off ∨ ∀ h ∈ s.config.hold, h.timer ≠ 0
  | .backupGoodToLow => off ∨ s.retention.backup = .low
  | .backupLowToGood => off ∨ s.retention.backup = .good
  | .readings _ | .timeSet _ | .timeGet _ | .editOpen _ | .editMeter _ | .editMeterDrop _ | .editDma _
  | .editDmaDrop _ | .editNight _ | .editCommit _ | .editDiscard _ | .configRead _ | .suspend _
  | .resume _ | .suspendList _ | .leakAck _ | .rebase _ | .relearn _ | .dmaStatus _ | .meterStatus _
  | .nightRead _ | .eventRead _ | .flagClear _ | .flagMask _ | .paramSetDaylightSaving _
  | .paramSetPortSettings _ | .partStatus _ =>
    ∀ p k, requestOf i = some (p, k) → NothingToTake s p (fun f => f.kind.toNat = k ∧ ItemFits i f)

/-- A request payload has the length that section 10.5 gives its kind: READINGS by its count of values, EDIT_DMA by
its count of terms, PARAM_SET by its item. -/
def LengthFits (k : Nat) (payload : List Octet) : Prop :=
  let n := payload.length
  let octet (i : Nat) : Nat := (payload.getD i 0).toNat
  match k with
  | 0x01 => 6 ≤ n ∧ 1 ≤ octet 5 ∧ octet 5 ≤ 24 ∧ n = 6 + 2 * octet 5
  | 0x02 => n = 7
  | 0x05 => n = 9
  | 0x07 => 4 ≤ n ∧ 1 ≤ octet 3 ∧ octet 3 ≤ 8 ∧ n = 30 + 2 * octet 3
  | 0x06 | 0x0E | 0x14 | 0x15 => n = 2
  | 0x08 | 0x11 | 0x12 | 0x13 | 0x17 | 0x18 => n = 1
  | 0x09 | 0x10 => n = 3
  | 0x0C | 0x0D => n = 4
  | 0x16 => n = 6
  | 0x19 => (payload.head? = some 1 ∧ n = 10) ∨ (payload.head? = some 2 ∧ n = 4)
  | _ => n = 0

/-- Port p may take a frame of the given kind and payload, addressed to it alone (R160). -/
def Taking (s : State) (p : Port) (f : Frame) (kind : Octet) (payload : List Octet) : Prop :=
  (∃ rest, ReadyToTake s p f rest) ∧ f.kind = kind ∧ f.payload = payload

/-- Port p, which may edit, may take a frame of the given kind and payload and holds the staging hold h
(R36, R37). -/
def HolderTaking (s : State) (p : Port) (f : Frame) (kind : Octet) (payload : List Octet) (h : Hold) :
    Prop :=
  Taking s p f kind payload ∧ p ≠ .a ∧ s.config.hold = some h ∧ h.port = p

/-- Port A or B may take a reading batch of one value v for absolute interval x of meter m, whose entry of the
active set is e, and the batch passes the checks of R9. -/
def OneReading (s : State) (p : Port) (f : Frame) (m : Nat) (e : MeterEntry) (x v : Nat) : Prop :=
  ∃ a1 a0 d1 d0 first v1 v0,
    Taking s p f 0x01 [a1, a0, d1, d0, first, 1, v1, v0] ∧ p ≠ .c ∧ u16 d1 d0 ≤ 36524 ∧
    first.toNat ≤ 95 ∧ s.calendar.valid = true ∧
    meterAt s.config.active.meters (u16 a1 a0) = some (m, e) ∧ x = u16 d1 d0 * 96 + first.toNat ∧
    v = u16 v1 v0

/-- The fields of a district entry, with its index, lie in the ranges of R28. -/
def DistrictEntry.InRange (d : Nat) (e : DistrictEntry) : Prop :=
  d ≤ 63 ∧ e.code ≤ 65535 ∧ 1 ≤ e.terms.length ∧ e.terms.length ≤ 8 ∧
  (∀ x ∈ e.terms, x.meter ≤ 255) ∧ e.properties ≤ 65535 ∧ e.perProperty ≤ 255 ∧
  e.nonHousehold ≤ 1000000 ∧ (∀ m ∈ e.pressurePoint, m ≤ 255) ∧ 1 ≤ e.refPressure ∧
  e.refPressure ≤ 2000 ∧ e.exponent ≤ 4 ∧ 1 ≤ e.minCoverage ∧ e.minCoverage ≤ 21 ∧
  e.absThreshold ≤ 1000000 ∧ e.relThreshold ≤ 255 ∧ 1 ≤ e.confirmNights ∧ e.confirmNights ≤ 7 ∧
  1 ≤ e.clearNights ∧ e.clearNights ≤ 15 ∧ 1 ≤ e.learnNights ∧ e.learnNights ≤ 15 ∧ 1 ≤ e.shift ∧
  e.shift ≤ 6 ∧ e.burstThreshold ≤ 10000000

/-- District d of a set has a term whose meter is m. -/
def NamesAt (c : ConfigSet) (d m : Nat) : Prop :=
  ∃ e, tget c.districts d = some e ∧ ∃ x ∈ e.terms, x.meter = m

/-- District d of a set has the term of meter m with a sign. -/
def TermAt (c : ConfigSet) (d m : Nat) (sign : Sign) : Prop :=
  ∃ e, tget c.districts d = some e ∧ (⟨m, sign⟩ : Term) ∈ e.terms

/-- Record i of a set fails one of the six checks of R47, in the words of its table. -/
def Rejects (c : ConfigSet) (why : Invalid) (i : Nat) : Prop :=
  match why with
  | .addressClash =>
    ∃ e, tget c.meters i = some e ∧
      ∃ j e', j < i ∧ tget c.meters j = some e' ∧ e'.address = e.address
  | .unknownMeter =>
    ∃ e, tget c.districts i = some e ∧
      ((∃ x ∈ e.terms, tget c.meters x.meter = none) ∨
        ∃ m ∈ e.pressurePoint, tget c.meters m = none)
  | .kind =>
    ∃ e, tget c.districts i = some e ∧
      ((∃ x ∈ e.terms, ∃ m, tget c.meters x.meter = some m ∧ m.kind = .pressure) ∨
        ∃ k ∈ e.pressurePoint, ∃ m w, tget c.meters k = some m ∧ m.kind = .flow w)
  | .terms =>
    ∃ e, tget c.districts i = some e ∧
      ((∀ x ∈ e.terms, x.sign ≠ .inlet) ∨ e.terms.length < 1 ∨ 8 < e.terms.length)
  | .overuse =>
    (tget c.meters i).isSome ∧
      ((∃ d e, tget c.districts d = some e ∧ 2 ≤ (e.terms.map Term.meter).count i) ∨
        (∃ a b d, a < b ∧ b < d ∧ NamesAt c a i ∧ NamesAt c b i ∧ NamesAt c d i) ∨
        ∃ a b sign, a < b ∧ TermAt c a i sign ∧ TermAt c b i sign)
  | .pool => i = 0 ∧ 384 < (c.districts.map (fun x => x.2.terms.length)).sum

/-- Window start of the night of plan n (R68, R22, R125): it is current and OPEN, both marks cleared and
CLOCK_STEPPED set where the start lies before the step horizon, the Interval Store and the nightly marks cleared, the
suspended marks set from the Suspension List, the burst marks cleared. -/
def entersNight (n : NightPlan) (u : State) : State :=
  { u with
    calendar := { u.calendar with
      cycle := .opened n
      disturbed := false
      clockStepped := decide (∃ h ∈ u.calendar.horizon, 900 * n.window < h) }
    intake := { u.intake with
      store := [], heard := [], suspended := tkeys u.suspensions, rangeReported := [] }
    burst := { u.burst with marks := [], raised := [] } }

/-- Window end of the night of plan n (R69): the phase becomes GRACE. -/
def endsWindow (n : NightPlan) (u : State) : State :=
  { u with calendar := { u.calendar with cycle := .grace n } }

/-- Grace end of the night of plan n (R70, R79): the held burst entries are taken, the phase becomes SETTLING, the
closed window is the night's, and the run starts with the two marks and every district of the active set. -/
def endsGrace (n : NightPlan) (u : State) : State :=
  let v := takeAllHeld u
  { v with
    calendar := { v.calendar with
      cycle := .settling n, closed := some ⟨n.date, n.window, n.length⟩ }
    settlement := some ⟨n.date, n.window, n.length, u.calendar.clockStepped, u.calendar.disturbed, false,
      tkeys u.config.active.districts, 0, 0, 0⟩ }

/-- The boundaries ahead that t has reached are fired in order in u, which gives x; firing stops at the first that
t has not reached and at grace end (R72). -/
def FiresTo (u x : State) : Prop :=
  let t := u.calendar.t
  match u.calendar.cycle with
  | .day (some n) =>
    (t < 900 * n.window → x = u) ∧
    (900 * n.window ≤ t → t < 900 * (n.window + n.length) → x = entersNight n u) ∧
    (900 * (n.window + n.length) ≤ t → t < 900 * n.graceEnd → x = endsWindow n (entersNight n u)) ∧
    (900 * (n.window + n.length) ≤ t → 900 * n.graceEnd ≤ t →
      x = endsGrace n (endsWindow n (entersNight n u)))
  | .opened n =>
    (t < 900 * (n.window + n.length) → x = u) ∧
    (900 * (n.window + n.length) ≤ t → t < 900 * n.graceEnd → x = endsWindow n u) ∧
    (900 * (n.window + n.length) ≤ t → 900 * n.graceEnd ≤ t → x = endsGrace n (endsWindow n u))
  | .grace n => (t < 900 * n.graceEnd → x = u) ∧ (900 * n.graceEnd ≤ t → x = endsGrace n u)
  | .halted | .day none | .settling _ => x = u

/-- The closed window that an entry into the cycle at t sets, over a plan for every night date: that of the latest night
whose grace end lies at or before t, or absent if there is none (R75, R76). -/
def ClosedAt (plan : Nat → NightPlan) (t : Nat) (closed : Option ClosedWindow) : Prop :=
  (closed = none ∧ ∀ k, t < (plan k).closesAt) ∨
  ∃ k, closed = some ⟨k, (plan k).window, (plan k).length⟩ ∧ (plan k).closesAt ≤ t ∧
    ∀ j, k < j → t < (plan j).closesAt

/-- The cycle is entered at u's t under R75, giving e and the night planned or entered, 0 for none: the earliest
night whose window end lies after t is planned before its window start and entered from it on, or neither where R64
does not admit it; the closed window is that of the latest night whose grace end lies at or before t; the step horizon
is absent. A night whose settlement a loss has ended is left out (R83; log 39). -/
def FirstEntry (u e : State) (night : Nat) : Prop :=
  let t := u.calendar.t
  let plan := planFor u.config.active.night u.calendar.rules
  ∃ (d : Nat) (closed : Option ClosedWindow),
    d ∉ u.calendar.leftOut ∧ t < (plan d).endsAt ∧
    (∀ k, k < d → k ∈ u.calendar.leftOut ∨ (plan k).endsAt ≤ t) ∧
    ClosedAt plan t closed ∧
    let base (cycle : NightCycle) : State :=
      { u with calendar := { u.calendar with
        closed := closed, horizon := none, cycle := cycle } }
    ((3155756400 < (plan d).closesAt ∧ e = base (.day none) ∧ night = 0) ∨
      ((plan d).closesAt ≤ 3155756400 ∧ t < (plan d).startsAt ∧ e = base (.day (some (plan d))) ∧
        night = d) ∨
      ((plan d).closesAt ≤ 3155756400 ∧ (plan d).startsAt ≤ t ∧
        e = entersNight (plan d) (base (.day none)) ∧ night = d))

/-- The cycle is entered at u's t at a start-up, u's main-domain items at their start-up values, giving e (R76, R171):
HALTED, the closed window absent, where the calendar is INVALID; where it is VALID, the closed window that of the latest
night whose grace end lies at or before t, and OPEN in a night's window, GRACE in its grace period, the night DISTURBED
and the suspended marks set, else DAY with the earliest night whose window start lies after t; with no night where R64
does not admit it. Left out are the nights whose settlement a loss has ended, with those before the one that this
start-up ends (R83), and the interrupted night outside its span (R172; log 39). Nothing else changes. -/
def StartEntry (u e : State) : Prop :=
  let t := u.calendar.t
  let night := u.config.active.night
  let plan := planFor night u.calendar.rules
  let enters (d : Nat) : Prop :=
    d ∉ u.calendar.leftOut ∧ ∀ n, u.calendar.brokenOff = .settling n → n < d
  let plans (d : Nat) : Prop := enters d ∧ u.calendar.brokenOff ≠ .collecting d
  ∃ (cycle : NightCycle) (closed : Option ClosedWindow) (disturbed : Bool) (suspended : IdxSet),
    let idle : Prop := disturbed = false ∧ suspended = []
    let again : Prop := disturbed = true ∧ suspended = tkeys u.suspensions
    e = { u with
      calendar := { u.calendar with
        cycle := cycle, closed := closed, disturbed := disturbed, brokenOff := .nothing }
      intake := { u.intake with suspended := suspended } } ∧
    (u.calendar.valid = false → cycle = .halted ∧ closed = none ∧ idle) ∧
    (u.calendar.valid = true → nightInRange night = true →
      ClosedAt plan t closed ∧ ∀ d,
        (enters d → 3155756400 < (plan d).closesAt → (plan d).startsAt ≤ t → t < (plan d).closesAt →
          cycle = .day none ∧ idle) ∧
        (enters d → (plan d).closesAt ≤ 3155756400 → (plan d).startsAt ≤ t → t < (plan d).endsAt →
          cycle = .opened (plan d) ∧ again) ∧
        (enters d → (plan d).closesAt ≤ 3155756400 → (plan d).endsAt ≤ t → t < (plan d).closesAt →
          cycle = .grace (plan d) ∧ again) ∧
        ((∀ k, enters k → t < (plan k).startsAt ∨ (plan k).closesAt ≤ t) →
          t < (plan d).startsAt → plans d → (∀ k, k < d → plans k → (plan k).startsAt ≤ t) →
          cycle = .day (planNight night u.calendar.rules d) ∧ idle))

/-- Every district that holds a runtime is a district of the active set (R103, R119, R122). -/
def TableFits (s : State) : Prop :=
  ∀ d, (tget s.districts d).isSome → (tget s.config.active.districts d).isSome

/-- Appends a list of events in order: kind, subject, night date, detail (R152). -/
def appendAll (es : List (EventKind × Nat × Nat × Int)) (s : State) : State :=
  es.foldl (fun r e => r.append e.1 e.2.1 e.2.2.1 e.2.2.2) s

end Sys2Proof.Machine
end

