-- ==== Sys2Proof/Certificates/Slice0/Obligations.lean ====
section
/-!
DEFINITION. The statements for the provers. `Taking`, `HolderTaking`, `replied` and the laws of the blocks
stand in Safety.lean.
-/

open Sys2Proof Sys2Proof.Machine

/-! ### The queue of commands (the model's own; log 2) -/

/-- One step takes the command at the front of the queue and is its meaning on the rest (the model's queue,
log 2). -/
def Obligations.StepTakesFrontCommand : Prop :=
  ∀ (c : Instr) (rest : List Instr) (s : State), s.pending = c :: rest →
    step s = exec c { s with pending := rest }

/-- Every command answers a next state in every state, and none touches the queue of the commands that wait; a command
whose event is not due leaves the whole state as it is. The queue is the model's (log 2), and so is what a command that
is not due does (the model's choice, log 1; when an event of the table is due: logs 2, 4, 5, 6, 13, 17, 18 and 30). -/
def Obligations.EveryCommandCompletes : Prop :=
  ∀ (i : Instr) (s : State),
    (∃ t, exec i s = .next t ∧ t.pending = s.pending) ∧ (NotDue i s → exec i s = .next s)

/-! ### The Request Service (sections 10.1 and 10.2) -/

/-- Sections 9.2 and 10.1: a kind outside the table is answered FORMAT, a kind outside its port's role ROLE, and
neither changes any state but the taking of the frame and its response; a broadcast forms no response and has no
effect, except that a TIME_SET taken on port B sets the calendar. -/
def Obligations.RequestServiceChecks : Prop :=
  (∀ (s : State) (p : Port) (f : Frame) (rest : List Frame), ReadyToTake s p f rest →
    (f.kind.toNat < 1 ∨ 0x1A < f.kind.toNat →
      exec (.unknownKind p) s = .next (replied s p f (s.takeFrame p) .format [])) ∧
    ∀ i k, requestOf i = some (p, k) → f.kind.toNat = k → ItemFits i f → p ∉ roleTable k →
      exec i s = .next (replied s p f (s.takeFrame p) .role [])) ∧
  ∀ (s : State) (p : Port) (f : Frame) (rest : List Frame),
    s.retention.powered = true → (s.port p).transmitter = none → (s.port p).queue = f :: rest →
    f.addr = 0xFF →
    (f.kind.toNat < 1 ∨ 0x1A < f.kind.toNat → exec (.unknownKind p) s = .next (s.takeFrame p)) ∧
    (∀ i k, requestOf i = some (p, k) → f.kind.toNat = k → ItemFits i f → ¬ (p = .b ∧ k = 0x02) →
      exec i s = .next (s.takeFrame p)) ∧
    ∀ y1 y0 mo d h mi se, p = .b → f.kind.toNat = 0x02 → f.payload = [y1, y0, mo, d, h, mi, se] →
      let c : CivilTime := ⟨u16 y1 y0, mo.toNat, d.toNat, h.toNat, mi.toNat, se.toNat⟩
      exec (.timeSet p) s =
        .next (if civilInRange c then setTime .b (instantOf c) (s.takeFrame .b) else s.takeFrame .b)

/-! ### The Configuration Store (chapter 2) -/

/-- Section 2.4, the staging hold. Opening: a free hold is granted with a copy of the pending set, else of the active
set, its night parameters too where it is empty (log 43), and the timer at 300; its holder's EDIT_OPEN restarts the timer; another port is told HELD with the holder. The
holder's EDIT_DISCARD ends the hold without an event. Expiry: a timer that has run to 0 is due to expire, and then the
hold ends with one STAGING_DROPPED, by the command HOLD_TIMER_EXPIRY or by the next second; while the timer runs, as
after a request taken first that restarted it, the expiry does not happen (log 4). With no command waiting a step is
one second of the main domain's time base, which the timer counts (the model's choice, log 3). -/
def Obligations.StagingHoldOpensCountsAndEnds : Prop :=
  (∀ (s : State) (p : Port) (f : Frame), p ≠ .a →
    (Taking s p f 0x04 [] →
      (s.config.hold = none →
        exec (.editOpen p) s = .next (replied s p f ((s.takeFrame p).setHold (some
          ⟨p, match s.config.pending with
            | some pd => pd.config
            | none => s.config.active, 300⟩)) .ok [])) ∧
      (∀ h, s.config.hold = some h → h.port = p →
        exec (.editOpen p) s =
          .next (replied s p f ((s.takeFrame p).setHold (some { h with timer := 300 })) .ok [])) ∧
      (∀ h, s.config.hold = some h → h.port ≠ p →
        exec (.editOpen p) s =
          .next (replied s p f (s.takeFrame p) .held [oct (portCode h.port)]))) ∧
    (∀ h, HolderTaking s p f 0x0B [] h →
      exec (.editDiscard p) s = .next (replied s p f ((s.takeFrame p).setHold none) .ok []))) ∧
  ∀ s : State,
    (s.pending = [] → (s.retention.powered = false ∨ s.config.hold = none) → step s = .next s) ∧
    ∀ h, s.retention.powered = true → s.config.hold = some h →
      let expired := (s.setHold none).append .stagingDropped (portCode h.port) (eventNight s) 0
      (1 ≤ h.timer → s.pending = [] →
        step s = .next (s.setHold (some { h with timer := h.timer - 1 }))) ∧
      (1 ≤ h.timer → exec .holdTimerExpiry s = .next s) ∧
      (h.timer = 0 → s.pending = [] → step s = .next expired) ∧
      (h.timer = 0 → exec .holdTimerExpiry s = .next expired)

/-- Sections 10.5, 10.1, 2.4 and 2.5: a request of a kind in its port's role whose payload has not the length of its
kind is refused FORMAT and changes nothing; an edit, which the hold is checked before (the order of the two checks: log
20), is so refused to the holder. The five edits of any length, EDIT_COMMIT and EDIT_DISCARD from a port that does not
hold the staging hold are refused NOT_HOLDER and change nothing. -/
def Obligations.LengthAndHoldAreChecked : Prop :=
  ∀ (s : State) (p : Port) (f : Frame) (rest : List Frame) (i : Instr) (k : Nat),
    ReadyToTake s p f rest → requestOf i = some (p, k) → f.kind.toNat = k → ItemFits i f →
    p ∈ roleTable k →
    let edits : List Nat := [0x05, 0x06, 0x07, 0x08, 0x09]
    let holds : Prop := ∃ h, s.config.hold = some h ∧ h.port = p
    (¬ LengthFits k f.payload → (k ∈ edits → holds) →
      exec i s = .next (replied s p f (s.takeFrame p) .format [])) ∧
    (¬ holds → (k ∈ edits ∨ (k ∈ [0x0A, 0x0B] ∧ f.payload = [])) →
      exec i s = .next (replied s p f (s.takeFrame p) .notHolder []))

/-- Sections 2.1, 2.4 and 10.5 (EDIT_DMA), from the holder: the payload that section 10.5 lays out for an entry in range
writes exactly that entry and restarts the timer; a payload whose length is not that of a term count of 1..8 is refused
FORMAT; and every other payload, one with a field out of range, is refused RANGE; a refusal changes nothing. -/
def Obligations.EditDmaWritesOneEntry : Prop :=
  ∀ (s : State) (p : Port) (f : Frame) (h : Hold),
    (∀ d e, e.InRange d → HolderTaking s p f 0x07 (layDistrict d e) h →
      exec (.editDma p) s = .next (replied s p f ((s.takeFrame p).setHold (some { h with
        staging := { h.staging with districts := tput h.staging.districts d e }
        timer := 300 })) .ok [])) ∧
    ∀ payload, HolderTaking s p f 0x07 payload h →
      (payload.length < 4 ∨ (payload.getD 3 0).toNat < 1 ∨ 8 < (payload.getD 3 0).toNat ∨
          payload.length ≠ 30 + 2 * (payload.getD 3 0).toNat →
        exec (.editDma p) s = .next (replied s p f (s.takeFrame p) .format [])) ∧
      (1 ≤ (payload.getD 3 0).toNat → (payload.getD 3 0).toNat ≤ 8 →
        payload.length = 30 + 2 * (payload.getD 3 0).toNat →
        (∀ d (e : DistrictEntry), e.InRange d → payload ≠ layDistrict d e) →
        exec (.editDma p) s = .next (replied s p f (s.takeFrame p) .range []))

/-- Section 2.4 (EDIT_METER, EDIT_METER_DROP, EDIT_DMA_DROP, EDIT_NIGHT), from the holder: EDIT_METER writes the whole
entry at its index of the staging set, a drop empties a place that holds an entry, EDIT_NIGHT replaces the night
parameters, each restarting the timer; a field out of range is refused RANGE and a drop of an empty place UNKNOWN_METER
or UNKNOWN_DMA, and then nothing changes. -/
def Obligations.EditsChangeOnePlace : Prop :=
  ∀ (s : State) (p : Port) (f : Frame) (h : Hold),
    let edited (c : ConfigSet) : State :=
      (s.takeFrame p).setHold (some { h with staging := c, timer := 300 })
    (∀ i1 i0 a1 a0 k w m1 m0 x, HolderTaking s p f 0x05 [i1, i0, a1, a0, k, w, m1, m0, x] h →
      let written (e : MeterEntry) : State :=
        edited { h.staging with meters := tput h.staging.meters (u16 i1 i0) e }
      (u16 i1 i0 ≤ 255 → 1 ≤ u16 a1 a0 → u16 a1 a0 ≤ 65534 → k = 0 → w.toNat ≤ 6 →
        1 ≤ u16 m1 m0 → u16 m1 m0 ≤ 65534 → x.toNat ≤ 1 →
        exec (.editMeter p) s = .next (replied s p f
          (written ⟨u16 a1 a0, .flow w.toNat, u16 m1 m0, decide (x = 1)⟩) .ok [])) ∧
      (u16 i1 i0 ≤ 255 → 1 ≤ u16 a1 a0 → u16 a1 a0 ≤ 65534 → k = 1 → w = 0xFF →
        1 ≤ u16 m1 m0 → u16 m1 m0 ≤ 2000 → x.toNat ≤ 1 →
        exec (.editMeter p) s = .next (replied s p f
          (written ⟨u16 a1 a0, .pressure, u16 m1 m0, decide (x = 1)⟩) .ok [])) ∧
      (255 < u16 i1 i0 ∨ u16 a1 a0 = 0 ∨ u16 a1 a0 = 65535 ∨ 1 < k.toNat ∨ 1 < x.toNat ∨
          (k = 0 ∧ (6 < w.toNat ∨ u16 m1 m0 = 0 ∨ u16 m1 m0 = 65535)) ∨
          (k = 1 ∧ (w ≠ 0xFF ∨ u16 m1 m0 = 0 ∨ 2000 < u16 m1 m0)) →
        exec (.editMeter p) s = .next (replied s p f (s.takeFrame p) .range []))) ∧
    (∀ i1 i0, HolderTaking s p f 0x06 [i1, i0] h →
      exec (.editMeterDrop p) s = .next (
        if 255 < u16 i1 i0 then replied s p f (s.takeFrame p) .range []
        else if (tget h.staging.meters (u16 i1 i0)).isNone then
          replied s p f (s.takeFrame p) .unknownMeter []
        else replied s p f (edited { h.staging with
          meters := h.staging.meters.filter (fun x => x.1 ≠ u16 i1 i0) }) .ok [])) ∧
    (∀ d, HolderTaking s p f 0x08 [d] h →
      exec (.editDmaDrop p) s = .next (
        if 63 < d.toNat then replied s p f (s.takeFrame p) .range []
        else if (tget h.staging.districts d.toNat).isNone then
          replied s p f (s.takeFrame p) .unknownDma []
        else replied s p f (edited { h.staging with
          districts := h.staging.districts.filter (fun x => x.1 ≠ d.toNat) }) .ok [])) ∧
    (∀ w n g, HolderTaking s p f 0x09 [w, n, g] h →
      exec (.editNight p) s = .next (
        if (23 < w.toNat ∧ w.toNat < 72) ∨ 95 < w.toNat ∨ n.toNat < 4 ∨ 24 < n.toNat ∨ 16 < g.toNat then
          replied s p f (s.takeFrame p) .range []
        else replied s p f (edited { h.staging with night := ⟨w.toNat, n.toNat, g.toNat⟩ }) .ok []))

/-- Section 2.5, the table of the commit checks: a set in canonical form is refused with a reason and an index
exactly when that record fails that check, no record of smaller index fails it, and no earlier check fails at
all; and a set that passes has the properties of the law of the active set. -/
def Obligations.CommitReportsFirstFailure : Prop :=
  ∀ c : ConfigSet, c.Canonical →
    (∀ why i, validate c = some (why, i) ↔
      Rejects c why i ∧ (∀ j, j < i → ¬ Rejects c why j) ∧
      ∀ why' j, invalidCode why' < invalidCode why → ¬ Rejects c why' j) ∧
    (validate c = none ↔ c.Lawful)

/-- Section 2.5 (EDIT_COMMIT): refused INVALID it keeps the staging set and restarts the timer; passed, it makes
the staging set pending and ends the hold, and in DAY and HALTED the set is installed in the same event, the
boundaries that the re-plan has put at or before t then firing. In DAY three points are the model's: CONFIG_INSTALLED takes
the night planned before the re-plan (log 27), a re-plan that section 3.3 does not admit leaves no night planned (log 23),
and a night that the re-plan opens late is marked CLOCK_STEPPED where a
step horizon stands after its window start (log 36). -/
def Obligations.CommitMakesPendingOrInstalls : Prop :=
  ∀ (s : State) (p : Port) (f : Frame) (h : Hold), CycleLawful s → HolderTaking s p f 0x0A [] h →
    let q := (s.takeFrame p).setConfig
      { s.config with pending := some ⟨h.staging, p⟩, hold := none }
    (∀ why i, validate h.staging = some (why, i) →
      exec (.editCommit p) s = .next (replied s p f
        ((s.takeFrame p).setHold (some { h with timer := 300 })) .invalid
        [oct (invalidCode why), oct i])) ∧
    (validate h.staging = none →
      (∀ n, (s.calendar.cycle = .opened n ∨ s.calendar.cycle = .grace n ∨
          s.calendar.cycle = .settling n) →
        exec (.editCommit p) s =
          .next (replied s p f q .ok ([0] ++ be16 s.config.generation.toNat))) ∧
      (s.calendar.cycle = .halted →
        exec (.editCommit p) s =
          .next (replied s p f (install 0 q) .ok ([1] ++ be16 (s.config.generation + 1).toNat))) ∧
      (∀ n, s.calendar.cycle = .day n →
        ∃ x, FiresTo (install (eventNight s) q) x ∧ exec (.editCommit p) s =
          .next (replied s p f x .ok ([1] ++ be16 (s.config.generation + 1).toNat))))

/-- Sections 2.6, 1.4, 5.5, 7.3, 8.2 and 3.3: what an installation does to the sets, the generation, the event
queue, the meters' runtimes, the districts, the rings, the suspensions and the plan. A kept district is reset when a
balance field differs (the terms as a collection with the addresses of their meters, the pressure point with its
address, Pref, exponent, P, A, Q), has its counts clamped when a judgement field does, and else is unchanged. A re-plan
that section 3.3 does not admit leaves DAY with no night planned (the model's reading, log 23). -/
def Obligations.InstallationAdjustsEveryBlock : Prop :=
  ∀ (s : State) (pd : PendingSet) (night : Nat), s.config.pending = some pd →
    let t := install night s
    let old := s.config.active
    let new := pd.config
    let address (c : ConfigSet) (m : Nat) : Option Nat := (tget c.meters m).map MeterEntry.address
    let addressed (c : ConfigSet) (e : DistrictEntry) : List (Term × Option Nat) :=
      e.terms.map (fun x => (x, address c x.meter))
    let balance (o e : DistrictEntry) : Prop :=
      (addressed old o).Perm (addressed new e) ∧ o.pressurePoint = e.pressurePoint ∧
      (∀ m ∈ e.pressurePoint, address old m = address new m) ∧ o.refPressure = e.refPressure ∧
      o.exponent = e.exponent ∧ o.properties = e.properties ∧ o.perProperty = e.perProperty ∧
      o.nonHousehold = e.nonHousehold
    let judgement (o e : DistrictEntry) : Prop :=
      o.absThreshold = e.absThreshold ∧ o.relThreshold = e.relThreshold ∧
      o.confirmNights = e.confirmNights ∧ o.clearNights = e.clearNights ∧
      o.learnNights = e.learnNights ∧ o.shift = e.shift ∧ o.minCoverage = e.minCoverage ∧
      o.burstThreshold = e.burstThreshold ∧ o.code = e.code
    t.config = ⟨new, s.config.generation + 1, none, s.config.hold⟩ ∧
    t.events = (s.append .configInstalled (portCode pd.port) night
      ((s.config.generation + 1).toNat : Int)).events ∧
    (∀ m, tget t.intake.runtime m =
      (tget new.meters m).map (fun e =>
        if address old m = some e.address then
          (tget s.intake.runtime m).getD ⟨.active, 0⟩
        else ⟨.active, 0⟩)) ∧
    (∀ m, tget t.suspensions m =
      if address old m = address new m ∧ (address new m).isSome then tget s.suspensions m
      else none) ∧
    (∀ d, tget new.districts d = none →
      tget t.districts d = none ∧ tget t.history d = none) ∧
    (∀ d e, tget new.districts d = some e → tget old.districts d = none →
      tget t.districts d = some ⟨.learning, none, 0, 0, 0, none, none, true⟩ ∧
      tget t.history d = none) ∧
    (∀ d o e r, tget old.districts d = some o → tget new.districts d = some e →
      tget s.districts d = some r →
      tget t.history d = tget s.history d ∧
      (¬ balance o e →
        tget t.districts d =
          some ⟨.learning, none, 0, 0, 0, none, r.lastSettled, true⟩) ∧
      (balance o e → judgement o e → tget t.districts d = some r) ∧
      (balance o e → ¬ judgement o e →
        tget t.districts d = some (match r.alarm with
          | .quiet => r
          | .learning => { r with learnCount :=
              if e.learnNights ≤ r.learnCount then e.learnNights - 1 else r.learnCount }
          | .watch =>
            if r.highCount < e.confirmNights ∧ r.highCount ≠ 0 then r
            else if 2 ≤ e.confirmNights ∧ r.highCount ≠ 0 then
              { r with highCount := e.confirmNights - 1 }
            else { r with highCount := 0, alarm := .quiet }
          | .leak | .standing => { r with normalCount :=
              if e.clearNights ≤ r.normalCount then e.clearNights - 1 else r.normalCount }))) ∧
    (∀ n, s.calendar.cycle = .day (some n) →
      t.calendar = { s.calendar with
        cycle := .day (planNight new.night s.calendar.rules n.date) }) ∧
    ((∀ n, s.calendar.cycle ≠ .day (some n)) → t.calendar = s.calendar) ∧
    t.burst = s.burst ∧ t.settlement = s.settlement ∧ t.retention = s.retention ∧
    t.intake.store = s.intake.store

/-! ### Reading Intake (chapter 1) -/

/-- Section 1.3, the table of the batch checks: the first that fails decides the answer and changes nothing (so NO_TIME
comes before UNKNOWN_METER, after a LAPSED power-up too, where sections 1.5 and 2.8 say otherwise: log 42); a batch that
passes is answered OK with nine counts that sum to its number of values, and the current night. A batch of
several values acts as its first value alone and then the others as a batch from the next interval on, the counts
adding up; past the last day of the calendar's range, where no batch can begin, every value is GAP or FUTURE. -/
def Obligations.ReadingsBatchChecks : Prop :=
  (∀ (s : State) (p : Port) (f : Frame) (payload : List Octet),
    Taking s p f 0x01 payload → p ≠ .c →
    let o (n : Nat) : Octet := payload.getD n 0
    let c := (o 5).toNat
    if payload.length < 6 ∨ c = 0 ∨ 24 < c ∨ payload.length ≠ 6 + 2 * c then
      exec (.readings p) s = .next (replied s p f (s.takeFrame p) .format [])
    else if 36524 < u16 (o 2) (o 3) ∨ 95 < (o 4).toNat then
      exec (.readings p) s = .next (replied s p f (s.takeFrame p) .range [])
    else if s.calendar.valid = false then
      exec (.readings p) s = .next (replied s p f (s.takeFrame p) .noTime [])
    else if ∀ x ∈ s.config.active.meters, x.2.address ≠ u16 (o 0) (o 1) then
      exec (.readings p) s = .next (replied s p f (s.takeFrame p) .unknownMeter [])
    else
      ∃ t counts,
        exec (.readings p) s =
          .next (replied s p f t .ok (counts ++ layCurrentNight s.calendar.cycle)) ∧
        counts.length = 9 ∧ (counts.map BitVec.toNat).sum = c) ∧
  ∀ (s : State) (p : Port) (f g1 g2 : Frame) (rest : List Frame) (a1 a0 : Octet) (x v : Nat)
      (vs : List Nat),
    let batch (x : Nat) (vs : List Nat) : List Octet :=
      [a1, a0] ++ be16 (x / 96) ++ [oct (x % 96), oct vs.length] ++ vs.flatMap be16
    let queued (u : State) (g : Frame) : State := u.setPort p { u.port p with queue := g :: rest }
    let night := layCurrentNight s.calendar.cycle
    ReadyToTake s p f rest → p ≠ .c → f.kind = 0x01 → f.payload = batch x (v :: vs) →
    x / 96 ≤ 36524 → vs ≠ [] → vs.length ≤ 23 → (∀ w ∈ v :: vs, w ≤ 65535) →
    s.calendar.valid = true → (∃ y ∈ s.config.active.meters, y.2.address = u16 a1 a0) →
    ((x + 1) / 96 ≤ 36524 → g1 = { f with payload := batch x [v] } →
      g2 = { f with payload := batch (x + 1) vs } →
      ∃ r1 r2 counts counts1 counts2,
        exec (.readings p) (queued s g1) =
          .next (replied (queued s g1) p g1 r1 .ok (counts1 ++ night)) ∧
        exec (.readings p) (queued r1 g2) =
          .next (replied (queued r1 g2) p g2 r2 .ok (counts2 ++ night)) ∧
        exec (.readings p) s = .next (replied s p f r2 .ok (counts ++ night)) ∧
        counts1.length = 9 ∧ counts2.length = 9 ∧ counts = List.zipWith (· + ·) counts1 counts2) ∧
    (36524 < (x + 1) / 96 → s.calendar.t ≤ 3155759999 →
      let gaps := (v :: vs).count 65535
      exec (.readings p) s = .next (replied s p f (s.takeFrame p) .ok
        ([0, 0, 0, oct gaps, oct ((v :: vs).length - gaps), 0, 0, 0, 0] ++ night)))

/-- Section 1.3 (GAP, FUTURE, LATE, OUTSIDE, SUSPENDED): a value with one of these outcomes is counted under it
and changes nothing. -/
def Obligations.UnfiledReadingsChangeNothing : Prop :=
  ∀ (s : State) (p : Port) (f : Frame) (m : Nat) (e : MeterEntry) (x v : Nat),
    OneReading s p f m e x v →
    let night := layCurrentNight s.calendar.cycle
    let current (n : NightPlan) : Prop :=
      s.calendar.cycle = .opened n ∨ s.calendar.cycle = .grace n
    let within (n : NightPlan) : Prop := n.window ≤ x ∧ x < n.window + n.length
    let closed : Prop :=
      ∃ w ∈ s.calendar.closed, w.window ≤ x ∧ x < w.window + w.length
    let ended : Prop := 900 * (x + 1) ≤ s.calendar.t
    let answers (counts : List Octet) : Prop :=
      exec (.readings p) s = .next (replied s p f (s.takeFrame p) .ok (counts ++ night))
    (v = 0xFFFF → answers [0, 0, 0, 1, 0, 0, 0, 0, 0]) ∧
    (v ≠ 0xFFFF → ¬ ended → answers [0, 0, 0, 0, 1, 0, 0, 0, 0]) ∧
    (v ≠ 0xFFFF → ended → (∀ n, current n → ¬ within n) → closed →
      answers [0, 0, 0, 0, 0, 1, 0, 0, 0]) ∧
    (v ≠ 0xFFFF → ended → (∀ n, current n → ¬ within n) → ¬ closed →
      answers [0, 0, 0, 0, 0, 0, 1, 0, 0]) ∧
    (∀ n, v ≠ 0xFFFF → ended → current n → within n → m ∈ s.intake.suspended →
      answers [0, 0, 0, 0, 0, 0, 0, 1, 0])

/-- Section 1.3 (ACCEPTED, DUPLICATE, CONFLICTED, RANGE) and what a reading does to the meter: the meter is
heard, a SILENT one becoming ACTIVE with METER_HEARD; then the slot or the range report changes as the outcome
says, and an accepted value of a FLOW meter is offered to the burst watch. -/
def Obligations.FiledReadings : Prop :=
  ∀ (s : State) (p : Port) (f : Frame) (m : Nat) (e : MeterEntry) (x v : Nat) (n : NightPlan),
    OneReading s p f m e x v → storeWf s.intake.store = true →
    (s.calendar.cycle = .opened n ∨ s.calendar.cycle = .grace n) →
    n.window ≤ x → x < n.window + n.length → v ≠ 0xFFFF → 900 * (x + 1) ≤ s.calendar.t →
    m ∉ s.intake.suspended →
    let k := x - n.window
    let r := s.takeFrame p
    let marked := r.setIntake { r.intake with heard := insertIdx r.intake.heard m }
    let heard : State :=
      match (tget s.intake.runtime m).getD ⟨.active, 0⟩ with
      | ⟨.active, _⟩ => marked
      | ⟨.silent, c⟩ =>
        (marked.setIntake { marked.intake with
          runtime := tput marked.intake.runtime m ⟨.active, c⟩ }).append
          .meterHeard m n.date (portCode p)
    let put (w : Slot) : State :=
      heard.setIntake { heard.intake with store := tput heard.intake.store (24 * m + k) w }
    let answers (t : State) (counts : List Octet) : Prop :=
      exec (.readings p) s =
        .next (replied s p f t .ok (counts ++ ([1] ++ be16 n.date)))
    (e.maximum < v → m ∉ s.intake.rangeReported →
      answers ((heard.setIntake { heard.intake with
          rangeReported := insertIdx heard.intake.rangeReported m }).append .meterRange m n.date v)
        [0, 0, 0, 0, 0, 0, 0, 0, 1]) ∧
    (e.maximum < v → m ∈ s.intake.rangeReported → answers heard [0, 0, 0, 0, 0, 0, 0, 0, 1]) ∧
    (v ≤ e.maximum → slotAt s.intake.store m k = .empty →
      (e.kind = .pressure → answers (put (.filled v)) [1, 0, 0, 0, 0, 0, 0, 0, 0]) ∧
      (∀ w, e.kind = .flow w →
        answers (takeOffer n m k (put (.filled v))) [1, 0, 0, 0, 0, 0, 0, 0, 0])) ∧
    (v ≤ e.maximum → slotAt s.intake.store m k = .filled v →
      answers heard [0, 1, 0, 0, 0, 0, 0, 0, 0]) ∧
    (∀ w, v ≤ e.maximum → slotAt s.intake.store m k = .filled w → w ≠ v →
      answers (put .conflict) [0, 0, 1, 0, 0, 0, 0, 0, 0]) ∧
    (v ≤ e.maximum → slotAt s.intake.store m k = .conflict →
      answers heard [0, 0, 1, 0, 0, 0, 0, 0, 0])

/-- Section 1.3: two waiting batches of ports A and B leave the same Interval Store whichever is taken
first. -/
def Obligations.FilingOrderLeavesOneStore : Prop :=
  ∀ (s : State) (f g : Frame) (restA restB : List Frame) (s1 s2 t1 t2 : State), Canonical s →
    ReadyToTake s .a f restA → ReadyToTake s .b g restB → f.kind = 0x01 → g.kind = 0x01 →
    exec (.readings .a) s = .next s1 → exec (.readings .b) s1 = .next s2 →
    exec (.readings .b) s = .next t1 → exec (.readings .a) t1 = .next t2 →
    s2.intake.store = t2.intake.store

/-! ### The Calendar and Night Cycle (chapter 3) -/

/-- Sections 3.1, 3.4 and 3.5 (TIME_SET with the calendar VALID): refused FORMAT or RANGE it changes nothing;
accepted, it sets t, a jump marks an OPEN or GRACE night and moves or clears the step horizon, CLOCK_SET is
appended, and the boundaries reached are fired in order: window start, window end and grace end, up to the first that
t has not reached. -/
def Obligations.TimeSetStepsTheCalendar : Prop :=
  ∀ (s : State) (f : Frame) (payload : List Octet), Taking s .b f 0x02 payload →
    (payload.length ≠ 7 →
      exec (.timeSet .b) s = .next (replied s .b f (s.takeFrame .b) .format [])) ∧
    ∀ y1 y0 mo d h mi se, payload = [y1, y0, mo, d, h, mi, se] →
      let c : CivilTime := ⟨u16 y1 y0, mo.toNat, d.toNat, h.toNat, mi.toNat, se.toNat⟩
      (c.year < 2000 ∨ 2099 < c.year ∨ c.month < 1 ∨ 12 < c.month ∨ c.day < 1 ∨
          monthLength c.year c.month < c.day ∨ 23 < c.hour ∨ 59 < c.minute ∨ 59 < c.second →
        exec (.timeSet .b) s = .next (replied s .b f (s.takeFrame .b) .range [])) ∧
      (2000 ≤ c.year ∧ c.year ≤ 2099 ∧ 1 ≤ c.month ∧ c.month ≤ 12 ∧ 1 ≤ c.day ∧
          c.day ≤ monthLength c.year c.month ∧ c.hour ≤ 23 ∧ c.minute ≤ 59 ∧ c.second ≤ 59 →
        s.calendar.valid = true →
        let t := instantOf c
        let size : Int := (t : Int) - (s.calendar.t : Int)
        let calendar : Calendar :=
          if -60 ≤ size ∧ size ≤ 60 then { s.calendar with t := t }
          else { s.calendar with
            t := t
            clockStepped := match s.calendar.cycle with
              | .opened _ | .grace _ => true
              | _ => s.calendar.clockStepped
            horizon := if 0 < size then some t else none }
        let r := ((s.takeFrame .b).setCalendar calendar).append .clockSet 1 (eventNight s)
          (max (-2147483647) (min 2147483647 size))
        ∃ x, FiresTo r x ∧ exec (.timeSet .b) s = .next (replied s .b f x .ok []))

/-- Sections 3.6, 3.5 and 2.6 (TIME_SET with the calendar INVALID). In HALTED the cycle is entered at the new t: the
earliest night whose window end lies after t is planned, or entered where its window has started, or neither where
section 3.3 does not plan it; the closed window is that of the latest night whose grace end lies at or before t; the
step horizon is absent; CLOCK_SET carries the night and the first-setting mark. A pending set is installed where the
phase becomes DAY, before CLOCK_SET, and the boundaries its re-plan has put at or before t fire after it (log 8); its
CONFIG_INSTALLED takes the night planned before the re-plan (log 27), which leaves no night planned where section 3.3 does
not admit it (log 23: these are the model's readings); in an entered night the set waits. In SETTLING only t, the validity
and the mark of the entry to come (log 24) change, and CLOCK_SET is appended. Night dates below 0 are not considered
(log 7), and a night whose settlement a loss has ended is left out (log 39). -/
def Obligations.FirstSettingEntersTheCycle : Prop :=
  ∀ (s : State) (f : Frame) (y1 y0 mo d h mi se : Octet),
    Taking s .b f 0x02 [y1, y0, mo, d, h, mi, se] →
    let c : CivilTime := ⟨u16 y1 y0, mo.toNat, d.toNat, h.toNat, mi.toNat, se.toNat⟩
    civilInRange c = true → s.calendar.valid = false →
    let set := (s.takeFrame .b).setCalendar { s.calendar with t := instantOf c, valid := true }
    let marked (u : State) (night : Nat) : State := u.append .clockSet 1 night (-2147483648)
    let answers (u : State) : Prop := exec (.timeSet .b) s = .next (replied s .b f u .ok [])
    (∀ n, s.calendar.cycle = .settling n →
      answers (marked (set.setCalendar { set.calendar with entryDue := true }) n.date)) ∧
    (s.calendar.cycle = .halted → nightInRange s.config.active.night = true →
      ∃ e night, FirstEntry set e night ∧
        ((s.config.pending = none ∨ ∃ n, e.calendar.cycle = .opened n) → answers (marked e night)) ∧
        (∀ n, s.config.pending ≠ none → e.calendar.cycle = .day n →
          ∃ x, FiresTo (marked (install night e) night) x ∧ answers x))

/-- Sections 3.1 to 3.3. The daylight-saving item: a field out of range is refused RANGE; accepted, all the rules are
replaced; in DAY the planned night is re-planned for its date and the boundaries reached fire (where section 3.3 does not
admit the new plan, no night is planned: the model's reading, log 23; a night so opened late is marked CLOCK_STEPPED where
a step horizon stands after its window start: the model's choice, log 36), in every other phase nothing else changes. The days run on from 1 January 2000 by the lengths of the months (for 2100 and later: log 33). A rule
names one date in each year: of its weekday, in its month, the first to fourth such date or the last, and its instant is
that date plus the hour. Daylight saving is in force in the summer span of t's own year: from the start rule's instant up
to the end rule's, or outside the span from the end rule's to the start rule's, never when the two are equal. The plan of a
night: its offset by noon of its date, its window start from the local one, its ends, and none past the range. -/
def Obligations.DaylightSavingAndTheNightPlan : Prop :=
  (∀ (s : State) (f : Frame) (en m1 w1 d1 h1 m2 w2 d2 h2 : Octet), CycleLawful s →
    Taking s .b f 0x19 [1, en, m1, w1, d1, h1, m2, w2, d2, h2] →
    let inRange (m w d h : Octet) : Prop :=
      1 ≤ m.toNat ∧ m.toNat ≤ 12 ∧ 1 ≤ w.toNat ∧ w.toNat ≤ 5 ∧ d.toNat ≤ 6 ∧ h.toNat ≤ 23
    let rules : DstRules :=
      ⟨decide (en = 1), ⟨m1.toNat, w1.toNat, d1.toNat, h1.toNat⟩,
        ⟨m2.toNat, w2.toNat, d2.toNat, h2.toNat⟩⟩
    let r := (s.takeFrame .b).setCalendar { s.calendar with rules := rules }
    (¬ (en.toNat ≤ 1 ∧ inRange m1 w1 d1 h1 ∧ inRange m2 w2 d2 h2) →
      exec (.paramSetDaylightSaving .b) s = .next (replied s .b f (s.takeFrame .b) .range [])) ∧
    (en.toNat ≤ 1 ∧ inRange m1 w1 d1 h1 ∧ inRange m2 w2 d2 h2 →
      ((∀ n, s.calendar.cycle ≠ .day (some n)) →
        exec (.paramSetDaylightSaving .b) s = .next (replied s .b f r .ok [])) ∧
      (∀ n, s.calendar.cycle = .day (some n) →
        let q := r.setCalendar { r.calendar with
          cycle := .day (planNight s.config.active.night rules n.date) }
        ∃ x, FiresTo q x ∧ exec (.paramSetDaylightSaving .b) s = .next (replied s .b f x .ok [])))) ∧
  let days (y m : Nat) : Nat :=
    if m = 2 then (if y % 4 = 0 then 29 else 28) else if m ∈ [4, 6, 9, 11] then 30 else 31
  (dayOfDate 2000 1 1 = 0 ∧ (∀ y, 2000 ≤ y → dayOfDate (y + 1) 1 1 = dayOfDate y 12 1 + 31) ∧
    ∀ y m, 2000 ≤ y → 1 ≤ m →
      (m ≤ 11 → dayOfDate y (m + 1) 1 = dayOfDate y m 1 + days y m) ∧
      ∀ d, 1 ≤ d → dayOfDate y m d = dayOfDate y m 1 + (d - 1)) ∧
  (∀ (r : DstRule) (y : Nat), 1 ≤ r.month → r.month ≤ 12 → 1 ≤ r.week → r.week ≤ 5 → r.weekday ≤ 6 →
    let first := dayOfDate y r.month 1
    ∃ k, ruleInstant r y = 86400 * k + 3600 * r.hour ∧ (k + 6) % 7 = r.weekday ∧
      first ≤ k ∧ k < first + days y r.month ∧
      (r.week ≤ 4 → first + 7 * (r.week - 1) ≤ k ∧ k < first + 7 * r.week) ∧
      (r.week = 5 → first + days y r.month ≤ k + 7)) ∧
  (∀ (rules : DstRules) (t y : Nat), 2000 ≤ y → dayOfDate y 1 1 ≤ t / 86400 →
    t / 86400 < dayOfDate (y + 1) 1 1 →
    let begins := ruleInstant rules.start y
    let ends := ruleInstant rules.stop y
    (inForce rules t = true ↔ rules.enabled = true ∧
      ((begins < ends ∧ begins ≤ t ∧ t < ends) ∨ (ends < begins ∧ (begins ≤ t ∨ t < ends))))) ∧
  ∀ (night : NightParams) (rules : DstRules) (d : Nat), nightInRange night = true →
    ∃ n : NightPlan, n.date = d ∧
      n.offset = (if inForce rules (86400 * d + 43200) then 4 else 0) ∧
      (72 ≤ night.start → n.window + n.offset = 96 * d + night.start) ∧
      (night.start ≤ 23 → n.window + n.offset = 96 * (d + 1) + night.start) ∧
      n.length = night.length ∧ n.graceEnd = n.window + n.length + night.grace ∧
      planFor night rules d = n ∧
      planNight night rules d = if 900 * n.graceEnd ≤ 3155756400 then some n else none

/-- Section 3.1: a tick that reaches no boundary advances t by 1 and changes nothing else, with or without main
power (after the latch is set too: the model's choice, log 32); the tick past the last second sets t to 0, makes the
calendar INVALID, clears the horizon and turns DAY into HALTED, SETTLING and HALTED standing; a pending set is installed
as DAY becomes HALTED (log 28). CALENDAR_RANGE_END is that tick by another name (log 6), and before the last second it is
not due and changes nothing (log 1). -/
def Obligations.TickCountsAndEndsTheRange : Prop :=
  ∀ s : State,
    (s.calendar.t < 3155759999 → NothingDue s.calendar.cycle (s.calendar.t + 1) →
      exec .calendarTick s =
        .next { s with calendar := { s.calendar with t := s.calendar.t + 1 } }) ∧
    (s.calendar.t < 3155759999 → exec .calendarRangeEnd s = .next s) ∧
    (s.calendar.t = 3155759999 →
      let ended (cycle : NightCycle) : State :=
        { s with calendar := { s.calendar with
          t := 0, valid := false, horizon := none, cycle := cycle } }
      ∀ i ∈ [Instr.calendarTick, Instr.calendarRangeEnd],
        (∀ n, s.calendar.cycle = .day n → s.config.pending = none →
          exec i s = .next (ended .halted)) ∧
        (∀ n, s.calendar.cycle = .day n → s.config.pending ≠ none →
          exec i s = .next (install 0 (ended .halted))) ∧
        (s.calendar.cycle = .halted → exec i s = .next (ended .halted)) ∧
        (∀ n, s.calendar.cycle = .settling n → exec i s = .next (ended (.settling n))))

/-- Section 3.4, window start: whether a tick or the command WINDOW_START, which taken one second early is that tick
by another name (log 5), brings t to it, the planned night becomes
current and OPEN, both marks are cleared and CLOCK_STEPPED set where the start lies before the step horizon, the
Interval Store and the nightly marks are cleared and the suspended marks set from the Suspension List, and the
burst marks are cleared. -/
def Obligations.WindowStartEntersTheNight : Prop :=
  ∀ (s : State) (n : NightPlan) (i : Instr), s.retention.powered = true →
    s.calendar.cycle = .day (some n) → 0 < n.length → s.calendar.t < 3155759999 →
    s.calendar.t + 1 = 900 * n.window → i ∈ [Instr.windowStart, Instr.calendarTick] →
    exec i s = .next { s with
      calendar := { s.calendar with
        t := s.calendar.t + 1
        cycle := .opened n
        disturbed := false
        clockStepped := decide (∃ h ∈ s.calendar.horizon, 900 * n.window < h) }
      intake := { s.intake with
        store := [], heard := [], suspended := tkeys s.suspensions, rangeReported := [] }
      burst := { s.burst with marks := [], raised := [] } }

/-- Section 3.4, window end and grace end, brought by a tick or by the commands WINDOW_END and GRACE_END, which taken one
second early are that tick by another name (log 5): at window end only the phase changes, to GRACE; at grace end the
held burst entries are taken one by one (in an order that is a free value, log 9), and then the phase becomes SETTLING,
the closed window is the night's and the run starts with the two marks and every district of the active set. With grace
0 both come in one event. -/
def Obligations.WindowEndAndGraceEnd : Prop :=
  ∀ (s : State) (n : NightPlan) (i : Instr), s.retention.powered = true →
    s.calendar.t < 3155759999 →
    let ticked := s.setCalendar { s.calendar with t := s.calendar.t + 1 }
    let u := takeAllHeld ticked
    let settling : State :=
      { u with
        calendar := { u.calendar with
          cycle := .settling n, closed := some ⟨n.date, n.window, n.length⟩ }
        settlement := some ⟨n.date, n.window, n.length, s.calendar.clockStepped,
          s.calendar.disturbed, false, tkeys s.config.active.districts, 0, 0, 0⟩ }
    (s.calendar.cycle = .opened n → s.calendar.t + 1 = 900 * (n.window + n.length) →
      i ∈ [Instr.windowEnd, Instr.calendarTick] →
      (n.window + n.length < n.graceEnd →
        exec i s = .next { s with calendar := { s.calendar with
          t := s.calendar.t + 1, cycle := .grace n } }) ∧
      (n.graceEnd = n.window + n.length → exec i s = .next
        (let v := takeAllHeld (ticked.setCalendar { ticked.calendar with cycle := .grace n })
        { v with calendar := settling.calendar, settlement := settling.settlement }))) ∧
    (s.calendar.cycle = .grace n → s.calendar.t + 1 = 900 * n.graceEnd →
      i ∈ [Instr.graceEnd, Instr.calendarTick] →
      exec i s = .next settling ∧ u.burst.held = [] ∧
      ∃ order : List Nat, order.Perm (tkeys s.burst.held) ∧
        u = order.foldl (fun r d => takeHeld d r) ticked)

/-- Sections 3.4, 1.4, 7.3, 2.6, 3.1 and 3.6, the settlement end: the meters' histories are updated and METER_SILENT
appended, the store and the nightly marks cleared, the expired suspensions removed with SUSPENSION_EXPIRED, a pending
set installed; then the next night, or the first later one whose settlement no loss has ended (section 4.1; log 39), is
planned and the boundaries reached fire; with the calendar INVALID the phase
becomes HALTED instead, and after a TIME_SET taken meanwhile with the calendar INVALID the cycle is entered at t as it
then stands (the mark that remembers it: log 24; night dates below 0: log 7). A meter unheard at 3 silent nights keeps
its condition, where it is ACTIVE too (the model's reading, log 34). Nothing else changes. -/
def Obligations.SettlementEndTakesItsSteps : Prop :=
  ∀ (s : State) (n : NightPlan), Canonical s → s.retention.powered = true →
    s.calendar.cycle = .settling n → s.settlement = none →
    let runtime (m : Nat) : MeterRuntime := (tget s.intake.runtime m).getD ⟨.active, 0⟩
    let silenced := (tkeys s.config.active.meters).filter
      (fun m => m ∉ s.intake.heard ∧ (runtime m).silentNights = 2)
    let expired := s.suspensions.filter (fun x => x.2.untilNight ≤ n.date)
    let appended := appendAll
      (silenced.map (fun m => (.meterSilent, m, n.date, 0)) ++
        expired.map (fun x =>
          (.suspensionExpired, x.1, n.date, (portCode x.2.setBy : Int)))) s
    ∃ table : Tbl MeterRuntime,
      (∀ m, tget table m =
        if (tget s.config.active.meters m).isNone then tget s.intake.runtime m
        else if m ∈ s.intake.heard then some ⟨.active, 0⟩
        else if (runtime m).silentNights < 2 then
          some ⟨(runtime m).condition, (runtime m).silentNights + 1⟩
        else if (runtime m).silentNights = 2 then some ⟨.silent, 3⟩
        else some (runtime m)) ∧
      let u : State := { s with
        calendar := { s.calendar with cycle := .day none }
        intake := ⟨table, [], [], [], []⟩
        suspensions := s.suspensions.filter (fun x => n.date < x.2.untilNight)
        events := appended.events
        ports := appended.ports }
      let v := if s.config.pending = none then u else install n.date u
      (s.calendar.valid = false → exec .settlementEnd s = .next
        { v with calendar := { v.calendar with cycle := .halted, entryDue := false } }) ∧
      (s.calendar.valid = true → s.calendar.entryDue = false →
        ∃ d x, n.date < d ∧ d ∉ s.calendar.leftOut ∧
          (∀ k, n.date < k → k < d → k ∈ s.calendar.leftOut) ∧
          FiresTo { v with calendar := { v.calendar with
            cycle := .day (planNight v.config.active.night s.calendar.rules d) } } x ∧
          exec .settlementEnd s = .next x) ∧
      (s.calendar.valid = true → s.calendar.entryDue = true →
        nightInRange v.config.active.night = true →
        ∃ e night, FirstEntry { v with calendar := { v.calendar with entryDue := false } } e night ∧
          exec .settlementEnd s = .next e)

/-! ### The Settlement Unit (chapter 4) -/

/-- Section 4.3: the pass makes ESTIMATED, with the floor of the mean, exactly the EMPTY and CONFLICT slots of
infill-enabled meters that stand inside the window between two FILLED slots; an estimate lies between its
neighbours; nothing else changes but the mark that the pass is done. -/
def Obligations.InfillPassEstimates : Prop :=
  ∀ (s : State) (run : Run), s.retention.powered = true → s.settlement = some run →
    run.infilled = false →
    ∃ store,
      exec .infillPass s = .next { s with
        intake := { s.intake with store := store }
        settlement := some { run with infilled := true } } ∧
      ∀ m k, k < 24 →
        let old := slotAt s.intake.store m
        let candidate : Prop :=
          (∃ x ∈ s.config.active.meters, x.1 = m ∧ x.2.infill = true) ∧ 1 ≤ k ∧
          k + 2 ≤ run.length ∧ (old k = .empty ∨ old k = .conflict)
        (∀ a b, candidate → old (k - 1) = .filled a → old (k + 1) = .filled b →
          slotAt store m k = .estimated ((a + b) / 2) ∧ min a b ≤ (a + b) / 2 ∧
          (a + b) / 2 ≤ max a b) ∧
        ((¬ candidate ∨ (∀ a, old (k - 1) ≠ .filled a) ∨ ∀ b, old (k + 1) ≠ .filled b) →
          slotAt store m k = old k)

/-- Sections 4.2, 4.7, 5.2 and 8.2, the hand-over of the district at the head of the list: a district that has settled
the night or a later one is skipped; else its runtime, the event of its judgement, its night record with the eight
conditions and the run's counts are written, a full ring of 32 records giving up its oldest, and nothing else changes.
Section 4.1: with nothing remaining the run completes with one NIGHT_SETTLED. -/
def Obligations.HandOverAndCompletion : Prop :=
  ∀ (s : State) (run : Run), s.retention.powered = true → s.settlement = some run →
    run.infilled = true →
    (∀ d rest e r, run.remaining = d :: rest → tget s.config.active.districts d = some e →
      tget s.districts d = some r →
      let run' : Run := { run with remaining := rest }
      let x := settleDistrict s run' e
      let burst := decide (d ∈ s.burst.raised)
      let settled (r' : DistrictRuntime) : Tbl DistrictRuntime :=
        tput s.districts d { r' with lastSettled := some run.date, configMark := false }
      let recorded (record : NightRecord) : Tbl (List NightRecord) :=
        let ring := (tget s.history d).getD []
        tput s.history d ((if ring.length < 32 then ring else ring.drop 1) ++ [record])
      ((∃ n, r.lastSettled = some n ∧ run.date ≤ n) →
        exec .handOver s = .next { s with settlement := some run' }) ∧
      (∀ reason, (∀ n, r.lastSettled = some n → n < run.date) → x.outcome = .inl reason →
        exec .handOver s = .next { s with
          districts := settled r
          history := recorded
            { date := run.date, code := e.code, result := .notAssessed, reason := some reason
              conditions := ⟨false, false, false, false, false, burst, run.clockStepped, r.configMark⟩
              positions := x.positions, minPosition := none, mnf := none, lnu := lnu e
              leakage := none, pavg := none, lnorm := none, baselineAfter := none
              alarmAfter := r.alarm }
          settlement := some { run' with notAssessed := run.notAssessed + 1 } }) ∧
      ∀ fig, (∀ n, r.lastSettled = some n → n < run.date) → x.outcome = .inr fig →
        let j := judgeAssessed run.date e fig.lnorm r
        let appended := appendAll (j.event.toList.map (fun v => (v.1, d, run.date, v.2))) s
        exec .handOver s = .next { s with
          districts := settled j.runtime
          history := recorded
            { date := run.date, code := e.code, result := j.result, reason := none
              conditions := ⟨decide (fig.mnf < 0), fig.belowAllowance, decide (fig.pavg = none),
                fig.clamped, fig.infilled, burst, run.clockStepped, r.configMark⟩
              positions := x.positions, minPosition := some fig.minPosition, mnf := some fig.mnf
              lnu := lnu e, leakage := some fig.leakage, pavg := fig.pavg
              lnorm := some fig.lnorm, baselineAfter := j.runtime.baseline
              alarmAfter := j.runtime.alarm }
          settlement := some { run' with
            assessed := run.assessed + 1
            high := if j.result = .high then run.high + 1 else run.high }
          events := appended.events
          ports := appended.ports }) ∧
    (run.remaining = [] →
      exec .settlementComplete s = .next ((s.append .nightSettled 0 run.date
        (run.assessed * 65536 + run.high * 256 + run.notAssessed)).setSettlement none))

/-- Sections 4.2, 4.4, 4.5 and 4.6: the outcome of a district of a run. The number of complete positions stands in
every result; DISTURBED, SUSPENDED and INCOMPLETE in that order make it NOT_ASSESSED; otherwise MNF is the
smallest hour sum at its earliest position, the leakage is what exceeds LNU; correction is applied exactly when the
district has a pressure point, unsuspended, with four available slots in that hour whose average is not 0; the
normalised leakage follows from the factor, and equals the leakage when no correction is applied; and an estimate in a
slot of that hour, of a term or of the applied pressure point, makes it INFILLED. -/
def Obligations.SettledFiguresOfADistrict : Prop :=
  ∀ (s : State) (run : Run) (e : DistrictEntry),
    let h := hourSum availableValue s.config.active.meters s.intake.store e.terms
    let x := settleDistrict s run e
    let suspended : Prop := ∃ y ∈ e.terms, y.meter ∈ s.intake.suspended
    let slot := slotAt s.intake.store
    let available (m k v : Nat) : Prop := slot m k = .filled v ∨ slot m k = .estimated v
    let estimated (m j : Nat) : Prop := ∃ k v, j ≤ k ∧ k ≤ j + 3 ∧ slot m k = .estimated v
    x.positions = ((List.range (run.length - 3)).filter (fun j => (h j).isSome)).length ∧
    (run.disturbed = true → x.outcome = .inl .disturbed) ∧
    (run.disturbed = false → suspended → x.outcome = .inl .suspended) ∧
    (run.disturbed = false → ¬ suspended → x.positions < e.minCoverage →
      x.outcome = .inl .incomplete) ∧
    (run.disturbed = false → ¬ suspended → 1 ≤ e.minCoverage → e.minCoverage ≤ x.positions →
      ∃ fig, x.outcome = .inr fig ∧ fig.minPosition < run.length - 3 ∧
        h fig.minPosition = some fig.mnf ∧
        (∀ j v, j < run.length - 3 → h j = some v →
          fig.mnf ≤ v ∧ (j < fig.minPosition → fig.mnf < v)) ∧
        (fig.leakage : Int) = max 0 (fig.mnf - (lnu e : Int)) ∧
        (fig.belowAllowance = true ↔ fig.mnf < (lnu e : Int)) ∧
        (∀ v, fig.pavg = some v ↔ v ≠ 0 ∧
          ∃ m a b c d, e.pressurePoint = some m ∧ m ∉ s.intake.suspended ∧
            available m fig.minPosition a ∧ available m (fig.minPosition + 1) b ∧
            available m (fig.minPosition + 2) c ∧ available m (fig.minPosition + 3) d ∧
            v = (a + b + c + d) / 4) ∧
        (fig.pavg = none → fig.lnorm = fig.leakage ∧ fig.clamped = false) ∧
        (∀ v, fig.pavg = some v →
          let raw := e.refPressure * 65536 / v
          fig.lnorm = fig.leakage * exponentFactor e.exponent (clampRatio raw) / 65536 ∧
          (fig.clamped = true ↔ raw < 32768 ∨ 131072 < raw)) ∧
        (fig.infilled = true ↔ (∃ y ∈ e.terms, estimated y.meter fig.minPosition) ∨
          (fig.pavg ≠ none ∧ ∃ m, e.pressurePoint = some m ∧ estimated m fig.minPosition)))

/-- Sections 1.1, 4.4 and 6.2, volumes, net flows and hour sums, as settlement (over FILLED and ESTIMATED slots) and
the burst watch (over FILLED slots) form them: a usable slot of a FLOW meter gives its value times the litres of its
weight code; the net flow is the sum over the IN terms less the sum over the OUT terms, and undefined when the slot of
any term gives no volume; the hour sum is the sum of four net flows, undefined when any of them is; and with slot values
up to 65534 and at most 8 terms, one of them IN, it lies in the manual's range. -/
def Obligations.HourSumsOfNetFlows : Prop :=
  (∀ slot v, availableValue slot = some v ↔ slot = .filled v ∨ slot = .estimated v) ∧
  (∀ slot v, filledValue slot = some v ↔ slot = .filled v) ∧
  ∀ (usable : Slot → Option Nat) (meters : Tbl MeterEntry) (store : Tbl Slot) (terms : List Term),
    let volumeIs (m k v : Nat) : Prop := ∃ e code value litres, tget meters m = some e ∧
      e.kind = .flow code ∧ ([1, 2, 5, 10, 20, 50, 100] : List Nat)[code]? = some litres ∧
      usable (slotAt store m k) = some value ∧ v = value * litres
    let sumOf (sign : Sign) (v : Term → Nat) : Int :=
      (((terms.filter (fun x => x.sign = sign)).map v).sum : Nat)
    let n := netFlow usable meters store terms
    let h := hourSum usable meters store terms
    (∀ k (v : Term → Nat), (∀ x ∈ terms, volumeIs x.meter k (v x)) →
      n k = some (sumOf .inlet v - sumOf .outlet v)) ∧
    (∀ k, ∀ x ∈ terms,
      (usable (slotAt store x.meter k) = none ∨ ∀ e code, tget meters x.meter = some e →
        e.kind ≠ .flow code) → n k = none) ∧
    (∀ j a b c d, n j = some a → n (j + 1) = some b → n (j + 2) = some c → n (j + 3) = some d →
      h j = some (a + b + c + d)) ∧
    (∀ j i, i ≤ 3 → n (j + i) = none → h j = none) ∧
    ∀ j v, h j = some v → terms.length ≤ 8 → (∃ x ∈ terms, x.sign = .inlet) →
      (∀ m k value, usable (slotAt store m k) = some value → value ≤ 65534) →
      -183495200 ≤ v ∧ v ≤ 209708800

/-- R93, the legitimate night use: its formula, the rounding example, its range and the operands of its largest
value; the same figure in every record and in the burst watch's test. -/
def Obligations.LegitimateNightUse : Prop :=
  ∀ e : DistrictEntry,
    lnu e = (e.properties * e.perProperty + e.nonHousehold + 5) / 10 ∧
    (e.properties * e.perProperty + e.nonHousehold = 44305 → lnu e = 4431) ∧
    (e.properties ≤ 65535 → e.perProperty ≤ 255 → e.nonHousehold ≤ 1000000 →
      lnu e ≤ 1771143) ∧
    (e.properties = 65535 → e.perProperty = 255 → e.nonHousehold = 1000000 →
      lnu e = 1771143) ∧
    (∀ night k c x j, (recordOf night e k c x j).lnu = lnu e) ∧
    (∀ b h, exceeds e b h = true ↔ h - ((b : Int) + (lnu e : Int)) > (e.burstThreshold : Int))

/-- R96, R97 and R98: the pressure ratio with its clamp and its condition; its square root as the largest integer
whose square is not greater; the factor of each exponent code, rising with the ratio between the table's outer
columns, and 65536 for a district left UNCORRECTED. -/
def Obligations.RatioRootAndFactor : Prop :=
  (∀ refP p, 1 ≤ refP → refP ≤ 2000 → 1 ≤ p → p ≤ 2000 →
    let raw := refP * 65536 / p
    rawRatio refP p = raw ∧ 32 ≤ raw ∧ raw ≤ 131072000 ∧
    clampRatio raw = (if raw < 32768 then 32768 else if 131072 < raw then 131072 else raw) ∧
    32768 ≤ clampRatio raw ∧ clampRatio raw ≤ 131072 ∧
    ∀ (s : State) (e : DistrictEntry) least, e.refPressure = refP →
      pressureAverage e s.intake.store s.intake.suspended least.1 = some p →
      ((figuresOf e s.intake.store s.intake.suspended least).clamped = true ↔
        raw < 32768 ∨ 131072 < raw)) ∧
  (∀ r, 32768 ≤ r → r ≤ 131072 →
    let q := ratioRoot r
    2147483648 ≤ r * 65536 ∧ r * 65536 ≤ 8589934592 ∧ q * q ≤ r * 65536 ∧
    r * 65536 < (q + 1) * (q + 1) ∧
    exponentFactor 0 r = q ∧ exponentFactor 1 r = r ∧ exponentFactor 2 r = r * q / 65536 ∧
    exponentFactor 3 r = r * r / 65536 ∧ exponentFactor 4 r = r * r / 65536 * q / 65536 ∧
    ∀ c, c ≤ 4 → exponentFactor c 32768 ≤ exponentFactor c r ∧
      exponentFactor c r ≤ exponentFactor c 131072 ∧ exponentFactor c 65536 = 65536 ∧
      11585 ≤ exponentFactor c r ∧ exponentFactor c r ≤ 370724 ∧
      ∀ r', r ≤ r' → r' ≤ 131072 → exponentFactor c r ≤ exponentFactor c r') ∧
  (ratioRoot 32768 = 46340 ∧ ratioRoot 65536 = 65536 ∧ ratioRoot 131072 = 92681) ∧
  ([0, 1, 2, 3, 4].map (fun c => exponentFactor c 32768) = [46340, 32768, 23170, 16384, 11585]) ∧
  ([0, 1, 2, 3, 4].map (fun c => exponentFactor c 131072) =
    [92681, 131072, 185362, 262144, 370724]) ∧
  ∀ e, factorOf e none = 65536

/-- Section 4.6, the normalised leakage: its formula, the bound of the product, the normalisation bound and the
operands that reach it, and the nights that are not scaled. -/
def Obligations.NormalisationBound : Prop :=
  (∀ l c r, l ≤ 209708800 → c ≤ 4 → 32768 ≤ r → r ≤ 131072 →
    normalise l (exponentFactor c r) = l * exponentFactor c r / 65536 ∧
    l * exponentFactor c r ≤ 77744085171200 ∧ l * exponentFactor c r < 2 ^ 47 ∧
    normalise l (exponentFactor c r) ≤ 1186280596) ∧
  normalise 209708800 (exponentFactor 4 131072) = 1186280596 ∧
  (∀ k, normalise 0 k = 0) ∧ ∀ l, normalise l 65536 = l

/-! ### The District State Table (chapter 5) -/

/-- R107, the baseline update: its formula, that the new baseline lies between the old one and the night's
leakage, that a difference below 2^s moves it not at all; and the nights on which it is applied or the baseline
is held. -/
def Obligations.BaselineUpdate : Prop :=
  (∀ shift b l : Nat,
    let b' := updateBaseline shift b l
    (b' : Int) = (b : Int) + Int.tdiv ((l : Int) - (b : Int)) (2 ^ shift) ∧
    min b l ≤ b' ∧ b' ≤ max b l ∧
    (((l : Int) - (b : Int)).natAbs < 2 ^ shift → b' = b)) ∧
  ∀ (night : Nat) (e : DistrictEntry) (l : Nat) (r : DistrictRuntime),
    let after := (judgeAssessed night e l r).runtime.baseline
    (r.alarm = .learning → r.baseline = none → after = some l) ∧
    (∀ b, r.baseline = some b →
      let high : Prop :=
        (l : Int) - (b : Int) > ((max e.absThreshold (b * e.relThreshold / 100) : Nat) : Int)
      let moved := some (updateBaseline e.shift b l)
      (r.alarm = .learning → after = moved) ∧
      (r.alarm = .quiet ∨ r.alarm = .watch → (¬ high → after = moved) ∧ (high → after = some b)) ∧
      (r.alarm = .leak ∨ r.alarm = .standing → after = some b))

/-- Section 5.2, the judgement in LEARNING, in QUIET and WATCH, in LEAK and STANDING: the next state, counts, alarm
record, result and event (with its detail) of an assessed night. -/
def Obligations.JudgementOfANight : Prop :=
  ∀ (night : Nat) (e : DistrictEntry) (l : Nat) (r : DistrictRuntime),
    let j := judgeAssessed night e l r
    (r.alarm = .learning →
      let b := match r.baseline with
        | none => l
        | some b => updateBaseline e.shift b l
      j.result = .learnt ∧
      (r.learnCount + 1 < e.learnNights →
        j.runtime = { r with baseline := some b, learnCount := r.learnCount + 1 } ∧
        j.event = none) ∧
      (e.learnNights ≤ r.learnCount + 1 →
        j.runtime = { r with baseline := some b, learnCount := 0, alarm := .quiet } ∧
        j.event = some (.districtLearnt, (b : Int)))) ∧
    ∀ b, r.baseline = some b →
      let excess : Int := (l : Int) - (b : Int)
      let high : Prop := excess > ((max e.absThreshold (b * e.relThreshold / 100) : Nat) : Int)
      let moved : DistrictRuntime := { r with baseline := some (updateBaseline e.shift b l) }
      let raised : DistrictRuntime :=
        { r with alarm := .leak, highCount := 0, record := some ⟨night, .nights⟩ }
      (r.alarm ≠ .learning → (high → j.result = .high) ∧ (¬ high → j.result = .normal)) ∧
      (r.alarm = .quiet →
        (¬ high → j.runtime = moved ∧ j.event = none) ∧
        (high → e.confirmNights ≤ 1 → j.runtime = raised ∧ j.event = some (.leakRaised, 0)) ∧
        (high → 2 ≤ e.confirmNights →
          j.runtime = { r with alarm := .watch, highCount := 1 } ∧
          j.event = some (.watchEntered, excess))) ∧
      (r.alarm = .watch →
        (¬ high → j.runtime = { moved with alarm := .quiet, highCount := 0 } ∧ j.event = none) ∧
        (high → e.confirmNights ≤ r.highCount + 1 →
          j.runtime = raised ∧ j.event = some (.leakRaised, 0)) ∧
        (high → r.highCount + 1 < e.confirmNights →
          j.runtime = { r with highCount := r.highCount + 1 } ∧ j.event = none)) ∧
      (r.alarm = .leak ∨ r.alarm = .standing →
        (high → j.runtime = { r with normalCount := 0 } ∧ j.event = none) ∧
        (¬ high → r.normalCount + 1 < e.clearNights →
          j.runtime = { r with normalCount := r.normalCount + 1 } ∧ j.event = none) ∧
        (∀ a, ¬ high → e.clearNights ≤ r.normalCount + 1 → r.record = some a →
          j.runtime = { r with alarm := .quiet, normalCount := 0, record := none } ∧
          j.event = some (if r.alarm = .leak then .leakCleared else .repairConfirmed,
            (a.night : Int))))

/-- R113, LEAK_ACK, after the shared checks of section 5.4: OK, ALREADY, STALE or NOT_IN_LEAK by the district's
state and the night named, each carrying the alarm state and record as they stand; only OK changes the district
and appends LEAK_ACKED. -/
def Obligations.LeakAckByState : Prop :=
  ∀ (s : State) (p : Port) (f : Frame) (payload : List Octet),
    Taking s p f 0x10 payload → p ≠ .a →
    (payload.length ≠ 3 →
      exec (.leakAck p) s = .next (replied s p f (s.takeFrame p) .format [])) ∧
    ∀ d n1 n0, payload = [d, n1, n0] →
      (63 < d.toNat ∨ 36524 < u16 n1 n0 →
        exec (.leakAck p) s = .next (replied s p f (s.takeFrame p) .range [])) ∧
      (d.toNat ≤ 63 → u16 n1 n0 ≤ 36524 → tget s.config.active.districts d.toNat = none →
        exec (.leakAck p) s = .next (replied s p f (s.takeFrame p) .unknownDma [])) ∧
      ∀ e r, d.toNat ≤ 63 → u16 n1 n0 ≤ 36524 →
        tget s.config.active.districts d.toNat = some e → tget s.districts d.toNat = some r →
        let alarm (x : AlarmState) (a : AlarmRecord) : List Octet :=
          [oct (alarmCode x), 1] ++ be16 a.night ++ [oct (causeCode a.cause)]
        (∀ a, r.alarm = .leak → r.record = some a → a.night = u16 n1 n0 →
          exec (.leakAck p) s = .next (replied s p f
            (((s.takeFrame p).setDistricts
              (tput s.districts d.toNat { r with alarm := .standing })).append
                .leakAcked d.toNat a.night (portCode p))
            .ok (alarm .standing a))) ∧
        (∀ a, r.alarm = .standing → r.record = some a → a.night = u16 n1 n0 →
          exec (.leakAck p) s =
            .next (replied s p f (s.takeFrame p) .already (alarm .standing a))) ∧
        (∀ a, (r.alarm = .leak ∨ r.alarm = .standing) → r.record = some a → a.night ≠ u16 n1 n0 →
          exec (.leakAck p) s =
            .next (replied s p f (s.takeFrame p) .stale (alarm r.alarm a))) ∧
        ((r.alarm = .learning ∨ r.alarm = .quiet ∨ r.alarm = .watch) → r.record = none →
          exec (.leakAck p) s = .next (replied s p f (s.takeFrame p) .notInLeak
            [oct (alarmCode r.alarm), 0, 0, 0, 0]))

/-- Section 5.4: REBASE takes the normalised leakage of the newest assessed record as the baseline and makes the
district QUIET with no alarm, or answers NO_NIGHT; RELEARN sends the district back to LEARNING; neither appends an
event. Before that the shared checks of section 5.4, of DMA_STATUS too: another length is refused FORMAT, an index
above 63 RANGE, an empty place UNKNOWN_DMA, and nothing changes. -/
def Obligations.RebaseAndRelearn : Prop :=
  (∀ (s : State) (f : Frame) (d : Octet) (e : DistrictEntry) (r : DistrictRuntime),
    d.toNat ≤ 63 → tget s.config.active.districts d.toNat = some e →
    tget s.districts d.toNat = some r →
    (Taking s .b f 0x11 [d] →
      ((r.alarm = .learning ∨ ∀ x ∈ ringOf s.history d.toNat, x.result = .notAssessed) →
        exec (.rebase .b) s = .next (replied s .b f (s.takeFrame .b) .noNight [])) ∧
      (∀ older x newer l, r.alarm ≠ .learning → ringOf s.history d.toNat = older ++ x :: newer →
        x.result ≠ .notAssessed → x.lnorm = some l → (∀ y ∈ newer, y.result = .notAssessed) →
        exec (.rebase .b) s = .next (replied s .b f
          ((s.takeFrame .b).setDistricts (tput s.districts d.toNat
            { r with alarm := .quiet, baseline := some l, learnCount := 0, highCount := 0,
                     normalCount := 0, record := none }))
          .ok (be16 x.date ++ be32 l)))) ∧
    (Taking s .b f 0x12 [d] →
      exec (.relearn .b) s = .next (replied s .b f
        ((s.takeFrame .b).setDistricts (tput s.districts d.toNat
          { r with alarm := .learning, baseline := none, learnCount := 0, highCount := 0,
                   normalCount := 0, record := none }))
        .ok []))) ∧
  ∀ (s : State) (p : Port) (f : Frame) (rest : List Frame) (i : Instr) (k : Nat),
    ReadyToTake s p f rest → requestOf i = some (p, k) → f.kind.toNat = k →
    k ∈ [0x11, 0x12, 0x13] → p ∈ roleTable k →
    (f.payload.length ≠ 1 →
      exec i s = .next (replied s p f (s.takeFrame p) .format [])) ∧
    ∀ d, f.payload = [d] →
      (63 < d.toNat → exec i s = .next (replied s p f (s.takeFrame p) .range [])) ∧
      (d.toNat ≤ 63 → tget s.config.active.districts d.toNat = none →
        exec i s = .next (replied s p f (s.takeFrame p) .unknownDma []))

/-! ### The Burst Watch and the Suspension List (chapters 6 and 7) -/

/-- R112, the entry of a burst at the District State Table: the held entry is taken; QUIET, WATCH and STANDING
become LEAK with the night and the cause, and LEAK_RAISED is appended; LEAK and LEARNING do not change. -/
def Obligations.BurstEntryRaisesLeak : Prop :=
  ∀ (s : State) (d night : Nat) (r : DistrictRuntime), s.retention.powered = true →
    tget s.burst.held d = some night → tget s.districts d = some r →
    let taken := s.setBurst { s.burst with held := tdel s.burst.held d }
    let raised (cause : Cause) (code : Int) (x : DistrictRuntime) : State :=
      (taken.setDistricts (tput s.districts d
        { x with alarm := .leak, record := some ⟨night, cause⟩ })).append .leakRaised d night code
    (r.alarm = .quiet ∨ r.alarm = .watch →
      exec (.burstEntry d) s = .next (raised .burst 1
        { r with learnCount := 0, highCount := 0, normalCount := 0 })) ∧
    (r.alarm = .standing →
      exec (.burstEntry d) s = .next (raised .burstOnStanding 2 { r with normalCount := 0 })) ∧
    (r.alarm = .leak ∨ r.alarm = .learning → exec (.burstEntry d) s = .next taken)

/-- Section 6.2. One district at an offer of slot k: a district that is not watched is passed over; for a watched
one exactly the complete positions around k whose hour sum exceeds B + LNU by more than Tb are marked, and a burst
is found, setting the mark and holding an entry for the night, exactly when a newly marked position has a marked
neighbour. An offer of meter m changes the burst watch alone, and there each district whose terms name m as its own
examination does, and no other. -/
def Obligations.OffersMarkAndFindBursts : Prop :=
  (∀ (s : State) (n : NightPlan) (k d : Nat) (e : DistrictEntry) (r : DistrictRuntime),
    tget s.districts d = some r →
    let t := examine n k s (d, e)
    let unwatched : Prop :=
      e.burstThreshold = 0 ∨ r.alarm = .learning ∨ r.alarm = .leak ∨ d ∈ s.burst.raised ∨
      (∃ x ∈ e.terms, x.meter ∈ s.intake.suspended) ∨ s.calendar.disturbed = true
    let before := (tget s.burst.marks d).getD []
    (unwatched → t = s) ∧
    ∀ b, ¬ unwatched → r.baseline = some b →
      let h := hourSum filledValue s.config.active.meters s.intake.store e.terms
      let fresh (j : Nat) : Prop :=
        j ≤ k ∧ k ≤ j + 3 ∧ j + 4 ≤ n.length ∧
        ∃ v, h j = some v ∧ v - ((b : Int) + (lnu e : Int)) > (e.burstThreshold : Int)
      let marked (j : Nat) : Prop := j ∈ before ∨ fresh j
      let found : Prop := ∃ j, fresh j ∧ (marked (j + 1) ∨ ∃ i, j = i + 1 ∧ marked i)
      (∀ j, j ∈ (tget t.burst.marks d).getD [] ↔ marked j) ∧
      (∀ d', d' ≠ d → tget t.burst.marks d' = tget s.burst.marks d') ∧
      (found → t.burst.raised = insertIdx s.burst.raised d ∧
        t.burst.held = tput s.burst.held d n.date) ∧
      (¬ found → t.burst.raised = s.burst.raised ∧ t.burst.held = s.burst.held) ∧
      t = { s with burst := t.burst }) ∧
  ∀ (s : State) (n : NightPlan) (m k : Nat),
    let t := takeOffer n m k s
    t = { s with burst := t.burst } ∧
    (∀ d, (∀ e, (d, e) ∈ s.config.active.districts → ∀ x ∈ e.terms, x.meter ≠ m) →
      tget t.burst.marks d = tget s.burst.marks d ∧
      (d ∈ t.burst.raised ↔ d ∈ s.burst.raised) ∧ tget t.burst.held d = tget s.burst.held d) ∧
    ∀ d e, s.config.active.Canonical → (d, e) ∈ s.config.active.districts →
      (∃ x ∈ e.terms, x.meter = m) →
      tget t.burst.marks d = tget (examine n k s (d, e)).burst.marks d ∧
      (d ∈ t.burst.raised ↔ d ∈ (examine n k s (d, e)).burst.raised) ∧
      tget t.burst.held d = tget (examine n k s (d, e)).burst.held d

/-- Section 7.2 (SUSPEND): the five checks in order, with the reference night of each phase; accepted, the entry
is added or replaced, and in OPEN and GRACE the meter's mark is set; the answer carries the entry, ADDED or
REPLACED, and the mark. -/
def Obligations.SuspendListsTheMeter : Prop :=
  ∀ (s : State) (p : Port) (f : Frame) (payload : List Octet),
    Taking s p f 0x0D payload → p ≠ .a →
    let refuses (x : Status) : Prop :=
      exec (.suspend p) s = .next (replied s p f (s.takeFrame p) x [])
    (payload.length ≠ 4 → refuses .format) ∧
    ∀ a1 a0 u1 u0, payload = [a1, a0, u1, u0] →
      let u := u16 u1 u0
      let reference : Option Nat :=
        match s.calendar.cycle with
        | .opened n | .grace n | .day (some n) => some n.date
        | .settling n => some (n.date + 1)
        | .day none | .halted => none
      let inRange : Prop := ∃ n, reference = some n ∧ n ≤ u ∧ u ≤ n + 30 ∧ u ≤ 36524
      (s.calendar.valid = false → refuses .noTime) ∧
      (s.calendar.valid = true → ¬ inRange → refuses .range) ∧
      (s.calendar.valid = true → inRange →
        meterAt s.config.active.meters (u16 a1 a0) = none → refuses .unknownMeter) ∧
      ∀ m e, s.calendar.valid = true → inRange →
        meterAt s.config.active.meters (u16 a1 a0) = some (m, e) →
        (tget s.suspensions m = none → 16 ≤ s.suspensions.length → refuses .full) ∧
        ((tget s.suspensions m).isSome ∨ s.suspensions.length < 16 →
          let listed := (s.takeFrame p).setSuspensions (tput s.suspensions m ⟨u, p⟩)
          let replaced : Octet := if (tget s.suspensions m).isSome then 1 else 0
          let entry : List Octet :=
            [oct m] ++ be16 e.address ++ be16 u ++ [oct (portCode p)]
          ((∃ n, s.calendar.cycle = .opened n ∨ s.calendar.cycle = .grace n) →
            exec (.suspend p) s = .next (replied s p f
              (listed.setIntake { listed.intake with
                suspended := insertIdx listed.intake.suspended m })
              .ok ([replaced, 1] ++ entry))) ∧
          ((∀ n, s.calendar.cycle ≠ .opened n ∧ s.calendar.cycle ≠ .grace n) →
            exec (.suspend p) s = .next (replied s p f listed .ok
              ([replaced, if m ∈ s.intake.suspended then 1 else 0] ++ entry))))

/-- R140, RESUME: its checks in order; accepted, the entry is removed and answered, no event is appended, and the
suspended-tonight mark is left. -/
def Obligations.ResumeRemovesTheEntry : Prop :=
  ∀ (s : State) (p : Port) (f : Frame) (payload : List Octet),
    Taking s p f 0x0E payload → p ≠ .a →
    (payload.length ≠ 2 →
      exec (.resume p) s = .next (replied s p f (s.takeFrame p) .format [])) ∧
    ∀ a1 a0, payload = [a1, a0] →
      ((∀ x ∈ s.config.active.meters, x.2.address ≠ u16 a1 a0) →
        exec (.resume p) s = .next (replied s p f (s.takeFrame p) .unknownMeter [])) ∧
      ∀ m e, meterAt s.config.active.meters (u16 a1 a0) = some (m, e) →
        (tget s.suspensions m = none →
          exec (.resume p) s = .next (replied s p f (s.takeFrame p) .notSuspended [])) ∧
        ∀ x, tget s.suspensions m = some x →
          exec (.resume p) s = .next (replied s p f
            ((s.takeFrame p).setSuspensions (s.suspensions.filter (fun y => y.1 ≠ m))) .ok
            ([oct m] ++ be16 e.address ++ be16 x.untilNight ++ [oct (portCode x.setBy)]))

/-! ### The read requests (chapters 1 to 11) -/

/-- Sections 3.1, 7.3, 10.1 and 10.5: TIME_GET, SUSPEND_LIST and PART_STATUS change no state; TIME_GET's standard
date is the date in range whose instant is t, and its local date that of t plus the offset in force (counted on into
2100 in the range's last hour: log 33). -/
def Obligations.WholeReadsChangeNothing : Prop :=
  ∀ (s : State) (p : Port) (f : Frame),
    (Taking s p f 0x03 [] → s.calendar.t ≤ 3155759999 →
      ∃ c l : CivilTime, civilInRange c = true ∧ instantOf c = s.calendar.t ∧
        1 ≤ l.month ∧ l.month ≤ 12 ∧ 1 ≤ l.day ∧ l.day ≤ monthLength l.year l.month ∧
        l.hour ≤ 23 ∧ l.minute ≤ 59 ∧ l.second ≤ 59 ∧ 2000 ≤ l.year ∧
        instantOf l = s.calendar.t + (if inForce s.calendar.rules s.calendar.t then 3600 else 0) ∧
        exec (.timeGet p) s = .next (replied s p f (s.takeFrame p) .ok
          (be16 c.year ++ [oct c.month, oct c.day, oct c.hour, oct c.minute, oct c.second] ++
            be16 l.year ++ [oct l.month, oct l.day, oct l.hour, oct l.minute, oct l.second] ++
            [if s.calendar.rules.enabled then
                (if inForce s.calendar.rules s.calendar.t then 2 else 1) else 0,
              if s.calendar.valid then 1 else 0] ++
            (match s.calendar.cycle with
              | .day (some n) | .opened n | .grace n | .settling n =>
                [1] ++ be16 n.date ++ be32 n.window ++ be32 n.graceEnd
              | .halted | .day none => [0, 0, 0, 0, 0, 0, 0, 0, 0, 0, 0])))) ∧
    (Taking s p f 0x0F [] →
      exec (.suspendList p) s = .next (replied s p f (s.takeFrame p) .ok
        ([oct s.suspensions.length] ++ s.suspensions.flatMap (fun x =>
          [oct x.1] ++
          be16 (((tget s.config.active.meters x.1).map MeterEntry.address).getD 0) ++
          be16 x.2.untilNight ++ [oct (portCode x.2.setBy)])))) ∧
    (Taking s p f 0x1A [] →
      exec (.partStatus p) s = .next (replied s p f (s.takeFrame p) .ok
        ((match s.calendar.cycle with
            | .halted => [0, 0, 0, 0]
            | .day _ => [1, 0, 0, 0]
            | .opened n => [2, 1] ++ be16 n.date
            | .grace n => [3, 1] ++ be16 n.date
            | .settling n => [4, 1] ++ be16 n.date) ++
          [if s.calendar.valid then 1 else 0] ++ be16 s.config.generation.toNat ++
          [if s.config.pending.isSome then 1 else 0,
            match s.config.hold with
            | some h => oct (portCode h.port)
            | none => 0xFF,
            if s.retention.verdict = .lapsed then 1 else 0,
            if s.retention.backup = .low then 1 else 0] ++
          [Port.a, Port.b, Port.c].flatMap (fun q =>
            [(s.port q).settings.unitAddr, oct (baudCode (s.port q).settings.baud)] ++
              be16 (s.port q).noise ++ be16 (s.port q).discard ++ be16 (s.port q).bitError) ++
          [flagOctet s p, oct (s.port p).mask.toNat, oct (s.port p).lostCount])))

/-- Sections 1.5, 5.4, 8.3 and 10.5: METER_STATUS, DMA_STATUS and NIGHT_READ report what they name as it stands,
refuse what is out of range or empty, and change no state. A record of NIGHT_READ is the 32 octets of its layout, and
every record the ring holds counts, a NOT_ASSESSED one too (where section 8.2's note says otherwise: log 38). -/
def Obligations.IndexedReadsChangeNothing : Prop :=
  ∀ (s : State) (p : Port) (f : Frame),
    let answers (i : Instr) (x : Status) (payload : List Octet) : Prop :=
      exec i s = .next (replied s p f (s.takeFrame p) x payload)
    (∀ i1 i0, Taking s p f 0x14 [i1, i0] →
      (255 < u16 i1 i0 → answers (.meterStatus p) .range []) ∧
      (u16 i1 i0 ≤ 255 → tget s.config.active.meters (u16 i1 i0) = none →
        answers (.meterStatus p) .unknownMeter []) ∧
      ∀ e, u16 i1 i0 ≤ 255 → tget s.config.active.meters (u16 i1 i0) = some e →
        let m := u16 i1 i0
        let r := (tget s.intake.runtime m).getD ⟨.active, 0⟩
        let slots : List Slot :=
          match s.calendar.cycle with
          | .opened n | .grace n | .settling n =>
            (List.range n.length).map (slotAt s.intake.store m)
          | .halted | .day _ => []
        answers (.meterStatus p) .ok (be16 e.address ++
          [if e.kind = .pressure then 1 else 0, if r.condition = .silent then 1 else 0,
            oct r.silentNights,
            oct ((if m ∈ s.intake.heard then 1 else 0) +
              2 * (if m ∈ s.intake.suspended then 1 else 0) +
              4 * (if m ∈ s.intake.rangeReported then 1 else 0)),
            oct slots.length] ++
          slots.flatMap (fun x => match x with
            | .empty => [0, 0, 0]
            | .filled v => [1] ++ be16 v
            | .conflict => [2, 0, 0]
            | .estimated v => [3] ++ be16 v))) ∧
    (∀ d e r, Taking s p f 0x13 [d] → d.toNat ≤ 63 →
      tget s.config.active.districts d.toNat = some e → tget s.districts d.toNat = some r →
      answers (.dmaStatus p) .ok (be16 e.code ++ [oct (alarmCode r.alarm)] ++
        (match r.baseline with
          | none => [0xFF, 0xFF, 0xFF, 0xFF, 0xFF, 0xFF, 0xFF, 0xFF]
          | some b => be32 b ++ be32 (max e.absThreshold (b * e.relThreshold / 100))) ++
        [oct r.learnCount, oct r.highCount, oct r.normalCount] ++
        (match r.record with
          | none => [0, 0, 0, 0]
          | some a => [1] ++ be16 a.night ++ [oct (causeCode a.cause)]) ++
        (match r.lastSettled with
          | none => [0, 0, 0]
          | some n => [1] ++ be16 n) ++
        [if r.configMark then 1 else 0])) ∧
    (∀ d age, Taking s p f 0x15 [d, age] →
      let ring := (tget s.history d.toNat).getD []
      let absent : List Octet := [0xFF, 0xFF, 0xFF, 0xFF]
      let bit (b : Bool) (n : Nat) : Nat := if b then n else 0
      let result (x : NightRecord) : Octet :=
        match x.result with
        | .learnt => 0
        | .normal => 1
        | .high => 2
        | .notAssessed => 3
      let reason (x : NightRecord) : Octet :=
        match x.reason with
        | none => 0
        | some .disturbed => 1
        | some .suspended => 2
        | some .incomplete => 3
      let alarm (x : NightRecord) : Octet :=
        match x.alarmAfter with
        | .learning => 0
        | .quiet => 1
        | .watch => 2
        | .leak => 3
        | .standing => 4
      let conditions (c : Conditions) : Octet :=
        oct (bit c.negativeFlow 1 + bit c.belowAllowance 2 + bit c.uncorrected 4 +
          bit c.pressureClamped 8 + bit c.infilled 16 + bit c.burst 32 + bit c.clockStepped 64 +
          bit c.newConfig 128)
      let octets (x : NightRecord) : List Octet :=
        be16 x.date ++ be16 x.code ++
          [result x, reason x, conditions x.conditions, oct x.positions,
            x.minPosition.elim 0xFF oct] ++
          x.mnf.elim [0x80, 0, 0, 0] (fun v => be32 (v % 4294967296).toNat) ++ be32 x.lnu ++
          x.leakage.elim absent be32 ++ x.pavg.elim [0, 0] be16 ++ x.lnorm.elim absent be32 ++
          x.baselineAfter.elim absent be32 ++ [alarm x]
      (∀ x, (octets x).length = 32) ∧
      (63 < d.toNat ∨ 31 < age.toNat → answers (.nightRead p) .range []) ∧
      (d.toNat ≤ 63 → age.toNat ≤ 31 → tget s.config.active.districts d.toNat = none →
        answers (.nightRead p) .unknownDma []) ∧
      (d.toNat ≤ 63 → age.toNat ≤ 31 → (tget s.config.active.districts d.toNat).isSome →
        (ring.length ≤ age.toNat → answers (.nightRead p) .noNight [oct ring.length]) ∧
        ∀ older x newer, ring = older ++ x :: newer → newer.length = age.toNat →
          answers (.nightRead p) .ok ([oct ring.length] ++ octets x)))

/-- Section 2.7 (CONFIG_READ): an item of the active, the pending or the holder's own staging set with the
generation; an empty place, an absent pending set and a STAGING read by another port are answered as the table
says; only the holder's read of STAGING answered OK restarts the hold timer. -/
def Obligations.ConfigReadAnswersAnItem : Prop :=
  ∀ (s : State) (p : Port) (f : Frame) (set item i1 i0 : Octet),
    Taking s p f 0x0C [set, item, i1, i0] →
    let i := u16 i1 i0
    let generation := be16 s.config.generation.toNat
    let refuses (x : Status) : Prop :=
      exec (.configRead p) s = .next (replied s p f (s.takeFrame p) x [])
    let badIndex : Prop := (item = 0 ∧ 255 < i) ∨ (item = 1 ∧ 63 < i)
    (2 < set.toNat ∨ 3 < item.toNat → refuses .format) ∧
    (set.toNat ≤ 2 → item.toNat ≤ 3 → badIndex → refuses .range) ∧
    (set = 2 → item.toNat ≤ 3 → ¬ badIndex → (∀ h, s.config.hold = some h → h.port ≠ p) →
      refuses .notHolder) ∧
    (set = 1 → item.toNat ≤ 3 → ¬ badIndex → s.config.pending = none →
      exec (.configRead p) s =
        .next (replied s p f (s.takeFrame p) .ok (generation ++ [0]))) ∧
    ∀ c t,
      ((set = 0 ∧ c = s.config.active ∧ t = s.takeFrame p) ∨
        (set = 1 ∧ (∃ pd, s.config.pending = some pd ∧ c = pd.config) ∧ t = s.takeFrame p) ∨
        (set = 2 ∧ ∃ h, s.config.hold = some h ∧ h.port = p ∧ c = h.staging ∧
          t = (s.takeFrame p).setHold (some { h with timer := 300 }))) →
      let answers (content : List Octet) : Prop :=
        exec (.configRead p) s = .next (replied s p f t .ok (generation ++ [1] ++ content))
      (item = 0 → i ≤ 255 → tget c.meters i = none → refuses .unknownMeter) ∧
      (∀ e, item = 0 → i ≤ 255 → tget c.meters i = some e → answers (layMeter i e)) ∧
      (item = 1 → i ≤ 63 → tget c.districts i = none → refuses .unknownDma) ∧
      (∀ e, item = 1 → i ≤ 63 → tget c.districts i = some e → answers (layDistrict i e)) ∧
      (item = 2 → answers [oct c.night.start, oct c.night.length, oct c.night.grace]) ∧
      (item = 3 → answers (be16 c.meters.length ++ [oct c.districts.length] ++
        be16 (c.districts.map (fun x => x.2.terms.length)).sum))

/-! ### The Event Queue and the attention flags (chapters 8 and 10) -/

/-- Section 8.5 (EVENT_READ), in a lawful queue: refusals move no cursor, and a FROM outside the queue names the
oldest and the next serial; an accepted read takes from its start, in order, the smaller of m and what is unread,
moves only this port's cursor past what it took, and reports what is left. -/
def Obligations.EventReadMovesOneCursor : Prop :=
  ∀ (s : State) (p : Port) (f : Frame) (m form s3 s2 s1 s0 : Octet), s.events.Lawful →
    Taking s p f 0x16 [m, form, s3, s2, s1, s0] →
    let q := s.events
    let serial : Serial := BitVec.ofNat 32 (u32 s3 s2 s1 s0)
    let listed : Prop := serial = q.next ∨ ∃ e ∈ q.entries, e.serial = serial
    let refuses (x : Status) (payload : List Octet) : Prop :=
      exec (.eventRead p) s = .next (replied s p f (s.takeFrame p) x payload)
    (1 < form.toNat → refuses .format []) ∧
    (form.toNat ≤ 1 → (m = 0 ∨ 8 < m.toNat) → refuses .range []) ∧
    (form = 1 → 1 ≤ m.toNat → m.toNat ≤ 8 → ¬ listed →
      refuses .range (be32 (match q.entries with
        | [] => q.next.toNat
        | e :: _ => e.serial.toNat) ++ be32 q.next.toNat)) ∧
    ∀ start : Serial, 1 ≤ m.toNat → m.toNat ≤ 8 →
      ((form = 0 ∧ start = q.cursors.get p) ∨ (form = 1 ∧ listed ∧ start = serial)) →
      ∃ older taken newer, q.entries = older ++ taken ++ newer ∧
        taken.length = min m.toNat (q.next - start).toNat ∧
        newer.length = (q.next - start).toNat - taken.length ∧
        (∀ i (h : i < taken.length), taken[i].serial = start + BitVec.ofNat 32 i) ∧
        exec (.eventRead p) s = .next (replied s p f
          ((s.takeFrame p).setEvents { q with
            cursors := q.cursors.set p (start + BitVec.ofNat 32 taken.length) }) .ok
          ([oct taken.length] ++ taken.flatMap layEvent ++
            [oct newer.length, if (s.port p).lost then 1 else 0, oct (s.port p).lostCount]))

/-- Section 8.4, an append to a lawful queue: the new entry is the newest, with the next serial; a full queue first
gives up its oldest entry, and exactly the ports whose cursor pointed at it move to the oldest that is left, set
LOST and count one more up to 255. Nothing else changes. -/
def Obligations.AppendKeepsTheNewest : Prop :=
  ∀ (s : State) (kind : EventKind) (subject night : Nat) (detail : Int), s.events.Lawful →
    let t := s.append kind subject night detail
    let new : Event := ⟨s.events.next, kind, subject, night, detail⟩
    t = { s with events := t.events, ports := t.ports } ∧ t.events.next = s.events.next + 1 ∧
    (s.events.entries.length < 128 →
      t.events.entries = s.events.entries ++ [new] ∧ t.events.cursors = s.events.cursors ∧
      t.ports = s.ports) ∧
    ∀ e rest, s.events.entries = e :: rest → s.events.entries.length = 128 →
      t.events.entries = rest ++ [new] ∧
      ∀ p, (s.events.cursors.get p ≠ e.serial →
          t.events.cursors.get p = s.events.cursors.get p ∧ t.ports.get p = s.ports.get p) ∧
        (s.events.cursors.get p = e.serial →
          t.events.cursors.get p = e.serial + 1 ∧
          t.ports.get p = { s.ports.get p with
            lost := true, lostCount := min ((s.ports.get p).lostCount + 1) 255 })

/-- Section 10.4: FLAG_CLEAR clears LOST with its count and LINK where their bits are set, FLAG_MASK replaces the
mask with bits 0 to 3, each refused RANGE or FORMAT as stated and each answered with flags, mask and lost count;
and the attention line of a powered part is asserted exactly while TIME or an unmasked flag is set. -/
def Obligations.FlagsMasksAndTheLine : Prop :=
  ∀ (s : State) (p : Port),
    (∀ f payload, Taking s p f 0x17 payload ∨ Taking s p f 0x18 payload →
      let i : Instr := if f.kind = 0x17 then .flagClear p else .flagMask p
      (payload.length ≠ 1 → exec i s = .next (replied s p f (s.takeFrame p) .format [])) ∧
      ∀ o, payload = [o] →
        (31 < o.toNat → exec i s = .next (replied s p f (s.takeFrame p) .range [])) ∧
        (o.toNat ≤ 31 →
          let x := (s.takeFrame p).port p
          let t := (s.takeFrame p).setPort p (
            if f.kind = 0x17 then
              { x with
                lost := x.lost && !o.getLsbD 1
                lostCount := if o.getLsbD 1 then 0 else x.lostCount
                link := x.link && !o.getLsbD 3 }
            else { x with mask := BitVec.ofNat 4 o.toNat })
          exec i s = .next (replied s p f t .ok
            [flagOctet t p, oct (t.port p).mask.toNat, oct (t.port p).lostCount]))) ∧
    (s.retention.powered = true →
      let leak : Prop := ∃ x ∈ s.districts, x.2.alarm = .leak
      let unread : Prop := s.events.next ≠ s.events.cursors.get p
      let mask := (s.port p).mask
      (attentionLine s p = true ↔
        s.calendar.valid = false ∨ (unread ∧ mask.getLsbD 0 = false) ∨
        ((s.port p).lost = true ∧ mask.getLsbD 1 = false) ∨ (leak ∧ mask.getLsbD 2 = false) ∨
        ((s.port p).link = true ∧ mask.getLsbD 3 = false)) ∧
      ((flagOctet s p).getLsbD 0 = true ↔ unread) ∧
      ((flagOctet s p).getLsbD 1 = (s.port p).lost) ∧
      ((flagOctet s p).getLsbD 2 = true ↔ leak) ∧
      ((flagOctet s p).getLsbD 3 = (s.port p).link) ∧
      ((flagOctet s p).getLsbD 4 = !s.calendar.valid) ∧ (flagOctet s p).toNat < 32)

/-! ### The link ports (chapter 9) -/

/-- Section 9.1: a false start records nothing; a confirmed character joins the frame with the majority value of
each bit, counting noise once where three samples of a bit do not agree; a stop bit taken as 0 condemns the frame.
A receiver that waits for the idle line searches only once it has been idle, and a false start then resumes its search. The samples and whether the line had been
idle are the command's operands (the model's choice, log 12); a character with no frame being assembled begins one whatever
length of idle came before it (log 41), and with a stop bit of 0 leaves a condemned frame of no octets (log 14). A change of
the port's settings that is due has been made before (section 9.7; log 17). -/
def Obligations.CharactersByMajority : Prop :=
  ∀ (s : State) (p : Port) (idle : Bool) (c : Samples), s.retention.powered = true →
    (p = .c → (s.port .c).transmitter = none) →
    let zeros (b : Nat) (is : List Nat) : Nat := (is.filter (fun i => !sample c b i)).length
    let bit (b : Nat) : Bool := decide (zeros b [7, 8, 9] ≤ 1)
    let split : Prop := ∃ b, 1 ≤ b ∧ b ≤ 9 ∧ zeros b [7, 8, 9] ≠ 0 ∧ zeros b [7, 8, 9] ≠ 3
    let x := (s.port p).adoptDue
    let counted (y : PortState) : PortState → Prop := fun z =>
      (split → z = { y with noise := min (x.noise + 1) 65535 }) ∧ (¬ split → z = y)
    let frame : RxFrame := x.receiver.frame.getD ⟨[], false, false⟩
    (x.receiver.waitIdle = true → idle = false →
      exec (.characterReceived p idle c) s = .next (s.setPort p x)) ∧
    (zeros 0 [4, 6, 8] < 2 → (x.receiver.waitIdle = false ∨ idle = true) →
      exec (.characterReceived p idle c) s =
        .next (s.setPort p { x with receiver := ⟨x.receiver.frame, false⟩ })) ∧
    (2 ≤ zeros 0 [4, 6, 8] → (x.receiver.waitIdle = false ∨ idle = true) →
      (bit 9 = false → ∃ z, exec (.characterReceived p idle c) s = .next (s.setPort p z) ∧
        counted { x with receiver := ⟨some { frame with condemned := true }, false⟩ } z) ∧
      (∀ o : Octet, bit 9 = true → (∀ i, i < 8 → o.getLsbD i = bit (i + 1)) →
        ∃ z, exec (.characterReceived p idle c) s = .next (s.setPort p z) ∧
          counted { x with receiver := ⟨some (
            if frame.octets.length < 256 then { frame with octets := frame.octets ++ [o] }
            else { frame with overlong := true }), false⟩ } z))

/-- Sections 9.2 and 9.3, the judgement of a frame at its end in the order of the table, and the request queue: an
accepted frame joins a queue of at most two, a third is an overrun. With no frame being assembled the idle line only
ends the receiver's wait for it (log 13). A change of the port's settings that is due has been made before (section 9.7;
log 17). -/
def Obligations.FrameEndJudgesTheFrame : Prop :=
  ∀ (s : State) (p : Port), s.retention.powered = true →
    (p = .c → (s.port .c).transmitter = none) →
    let x := (s.port p).adoptDue
    let freed : PortState := { x with receiver := ⟨none, false⟩ }
    let discarded : PortState :=
      { freed with discard := min (x.discard + 1) 65535, link := true }
    let ends (z : PortState) : Prop := exec (.frameEnd p) s = .next (s.setPort p z)
    (x.receiver.frame = none → ends freed) ∧
    ∀ g, x.receiver.frame = some g →
      let n := g.octets.length
      let addressed : Prop :=
        g.octets.head? = some x.line.unitAddr ∨ g.octets.head? = some 0xFF
      let good : Prop :=
        g.octets.drop (n - 2) = be16 (crc (g.octets.take (n - 2))).toNat
      (g.condemned = true ∨ g.overlong = true ∨ n < 5 → ends discarded) ∧
      (g.condemned = false → g.overlong = false → 5 ≤ n → ¬ addressed → ends freed) ∧
      (g.condemned = false → g.overlong = false → 5 ≤ n → addressed → ¬ good →
        ends discarded) ∧
      ∀ a k tag payload c1 c0, g.condemned = false → g.overlong = false → addressed → good →
        g.octets = [a, k, tag] ++ payload ++ [c1, c0] →
        (x.queue.length < 2 →
          ends { freed with queue := x.queue ++ [⟨a, k, tag, payload⟩] }) ∧
        (2 ≤ x.queue.length → ends discarded)

/-- Sections 9.2 and 10.5, sending and judging agree: the octets of a request frame are accepted as exactly that
frame by a port it is addressed to; and no frame that differs from an accepted one in exactly one octet is
accepted. The judgement alone is spoken of, so payloads above 251 octets, which a receiver marks over-long, are
admitted here without that mark. -/
def Obligations.FramesAreReadAsSent : Prop :=
  (∀ (u : Octet) (f : Frame), (f.addr = u ∨ f.addr = 0xFF) →
    judgeFrame u ⟨f.octets, false, false⟩ = .accepted f) ∧
  (∀ (u : Octet) (l r : List Octet) (o o' : Octet) (f : Frame), o ≠ o' →
    judgeFrame u ⟨l ++ o :: r, false, false⟩ = .accepted f →
    ∀ g, judgeFrame u ⟨l ++ o' :: r, false, false⟩ ≠ .accepted g) ∧
  crc ([0x31, 0x32, 0x33, 0x34, 0x35, 0x36, 0x37, 0x38, 0x39] : List Octet) = 0x29B1

/-- Sections 9.4 and 9.5: RESPONSE_SENT frees the transmitter; an echo mismatch on port C, as the command
ECHO_MISMATCH or as a character read back that differs, abandons the response, counts a bit error, sets LINK and
makes the receiver wait for idle; a character read back as sent only advances the echo (the echo of a character is
the model's reading, log 15), and one that the idle line came before ends a wait for it. The end of a response on port B lets stored settings go ahead (section 9.7; log 17).
-/
def Obligations.ResponsesEndOrAreAbandoned : Prop :=
  ∀ (s : State) (p : Port) (tx : Transmission), s.retention.powered = true →
    (s.port p).transmitter = some tx →
    let x := s.port p
    let waits (idle : Bool) : PortState :=
      { x with receiver := ⟨x.receiver.frame, x.receiver.waitIdle && !idle⟩ }
    let done (y : PortState) : PortState :=
      if y.change = .awaiting then { y with change := .ready } else y
    let freed := s.setPort p { x with transmitter := none }
    exec (.responseSent p) s =
      .next (if p = .b then { freed with ports := freed.ports.map done } else freed) ∧
    (p = .c →
      let abandoned (y : PortState) : State := s.setPort .c { y with
        transmitter := none
        bitError := min (y.bitError + 1) 65535
        link := true
        receiver := ⟨y.receiver.frame, true⟩ }
      exec .echoMismatch s = .next (abandoned x) ∧
      (∀ idle c, startConfirmed c = false →
        exec (.characterReceived .c idle c) s = .next (s.setPort .c (waits idle))) ∧
      ∀ idle c o, startConfirmed c = true → tx.response.octets[tx.echoed]? = some o →
        let y : PortState :=
          if noisy c then { waits idle with noise := min (x.noise + 1) 65535 } else waits idle
        (charOctet c = o → stopGood c = true →
          exec (.characterReceived .c idle c) s = .next (s.setPort .c { y with
            transmitter := some { tx with echoed := tx.echoed + 1 } })) ∧
        (charOctet c ≠ o ∨ stopGood c = false →
          exec (.characterReceived .c idle c) s = .next (abandoned y)))

/-- Section 9.6, the port reset: frame, queue and response are dropped, LINK, LOST and the lost count cleared, all four
mask bits set, the receiver waiting for idle; then a staging hold of that port is released with STAGING_DROPPED, whose
append to a full queue may set the port's LOST again (the order of the two: log 35). Settings, line counts, cursors but
for that append, and the other ports stay (but for stored settings that waited for port B's response, section 9.7; log
17). -/
def Obligations.PortResetClearsThePort : Prop :=
  ∀ (s : State) (p : Port), s.retention.powered = true →
    let done (y : PortState) : PortState :=
      if y.change = .awaiting then { y with change := .ready } else y
    let ports := if p = .b then s.ports.map done else s.ports
    let t := { s with ports := ports.set p { ports.get p with
      receiver := ⟨none, true⟩, queue := [], transmitter := none, lost := false, link := false,
      lostCount := 0, mask := 0xF } }
    ((∀ h, s.config.hold = some h → h.port ≠ p) → exec (.portReset p) s = .next t) ∧
    ∀ h, s.config.hold = some h → h.port = p →
      exec (.portReset p) s = .next ((t.setHold none).append .stagingDropped (portCode p)
        (eventNight s) 1)

/-- Sections 9.7 and 10.2 (the port-settings item): a port, an address or a baud code out of range is refused
RANGE; accepted, the settings of the named port are stored, its line taking them only once the response has
finished on port B (log 17) and the port is not transmitting; from then on its line has them: the frame it assembles is
dropped and its receiver waits for idle, by PORT_SETTINGS_APPLIED or, where a character, the end of a frame or the taking
of a waiting frame at the port, or a change stored for it again, comes before that command, by that (log 17). -/
def Obligations.PortSettingsAreStoredThenApplied : Prop :=
  let applied (x : PortState) : PortState :=
    { x with line := x.settings, change := .settled, receiver := ⟨none, true⟩ }
  ∀ s : State,
    (∀ f port addr baud, Taking s .b f 0x19 [2, port, addr, baud] →
      (2 < port.toNat ∨ addr = 0x00 ∨ addr = 0xFF ∨ 4 < baud.toNat →
        exec (.paramSetPortSettings .b) s =
          .next (replied s .b f (s.takeFrame .b) .range [])) ∧
      ∀ q b, port.toNat = portCode q → addr ≠ 0x00 → addr ≠ 0xFF → baud.toNat = baudCode b →
        exec (.paramSetPortSettings .b) s = .next (replied s .b f
          ((s.takeFrame .b).setPort q {
            if ((s.takeFrame .b).port q).change = .ready ∧
                ((s.takeFrame .b).port q).transmitter = none then applied ((s.takeFrame .b).port q)
            else (s.takeFrame .b).port q with
            settings := ⟨addr, b⟩, change := .awaiting }) .ok [])) ∧
    (∀ p, s.retention.powered = true → (s.port p).change = .ready →
      (s.port p).transmitter = none →
      let a := s.setPort p (applied (s.port p))
      exec (.portSettingsApplied p) s = .next a ∧
      exec (.frameEnd p) s = exec (.frameEnd p) a ∧
      (∀ idle c, exec (.characterReceived p idle c) s = exec (.characterReceived p idle c) a) ∧
      ∀ f rest i, (s.port p).queue = f :: rest →
        (i = .unknownKind p ∧ (f.kind.toNat < 1 ∨ 0x1A < f.kind.toNat)) ∨
          (requestOf i = some (p, f.kind.toNat) ∧ ItemFits i f) →
        exec i s = exec i a ∧ (a.takeFrame p).port p = { applied (s.port p) with queue := rest }) ∧
    ∀ p, (s.port p).change ≠ .ready ∨ (s.port p).transmitter ≠ none →
      exec (.portSettingsApplied p) s = .next s

/-! ### Retention and start-up (chapter 11) -/

/-- Sections 11.2, 11.3, 3.6 and 2.8, a power-up with the latch clear and the reset line: retained items stay,
main-domain items take their start-up values, and the cycle is entered from the calendar; BACKUP_LOW is appended where the
backup state is LOW, with the night of the phase entered; then a retained pending set is installed in DAY and HALTED, the
boundaries that its re-plan has put at or before t firing, and waits in a night entered again. The entry is the one of
`StartEntry`: night dates below 0 are not considered (log 7: in the small hours of 1 January 2000 night 0 is planned), the
nights whose settlement a loss has ended, with those before the one that this start-up ends, and the interrupted one outside
its span are left out, whatever section 3.6's table says of them (log 39), and the closed window is absent in HALTED
(log 40); CONFIG_INSTALLED in DAY takes the night planned before the re-plan (log 27), which leaves none where section 3.3
does not admit it (log 23). -/
def Obligations.StartUpKeepsRetainedState : Prop :=
  ∀ (s : State) (b : BackupState) (i : Instr),
    ((i = .powerUp b ∧ s.retention.powered = false ∧ s.retention.latch = false) ∨
      (i = .resetLine ∧ s.retention.powered = true ∧ b = s.retention.backup)) →
    let leftOut : IdxSet :=
      match s.calendar.cycle with
      | .settling n => insertIdx s.calendar.leftOut n.date
      | .halted | .day _ | .opened _ | .grace _ => s.calendar.leftOut
    let brokenOff : BrokenOff :=
      match s.calendar.cycle with
      | .opened n | .grace n => .collecting n.date
      | .settling n => .settling n.date
      | .halted | .day _ => .nothing
    let u : State := { s with
      intake := ⟨s.intake.runtime, [], [], [], []⟩
      config := { s.config with hold := none }
      calendar := ⟨s.calendar.t, s.calendar.valid, s.calendar.rules, .halted, false, false, none, none,
        false, if s.retention.powered then leftOut else s.calendar.leftOut,
        if s.retention.powered then brokenOff else s.calendar.brokenOff⟩
      settlement := none
      burst := ⟨[], [], []⟩
      history := []
      events := ⟨[], 0, ⟨0, 0, 0⟩⟩
      ports := s.ports.map (fun x => PortState.started x.settings)
      retention := if s.retention.powered then s.retention else ⟨true, .intact, false, b⟩ }
    ∃ e x, StartEntry u e ∧ exec i s = .next x ∧
      let v : State := { e with
        events := if b = .low then ⟨[⟨0, .backupLow, 0, eventNight e, 0⟩], 1, ⟨0, 0, 0⟩⟩
          else ⟨[], 0, ⟨0, 0, 0⟩⟩ }
      (s.config.pending = none → x = v) ∧
      (∀ n, (e.calendar.cycle = .opened n ∨ e.calendar.cycle = .grace n) → x = v) ∧
      (s.config.pending ≠ none →
        (e.calendar.cycle = .halted → x = install 0 v) ∧
        ∀ n, e.calendar.cycle = .day n → FiresTo (install (eventNight e) v) x)

/-- Sections 11.1 to 11.4, the supply commands: power-up and the reset line end in a next state with main power
present; a power-up with the latch set gives everything the part holds its LAPSED or start-up value, whatever the state
before (the queue of commands, the model's own, apart), a LOW backup supply appending BACKUP_LOW after RETENTION_LAPSED
(State.reset is the state so left with a GOOD one, log 25; the supply's state is POWER_UP's operand, log 11); at a loss
of main power every retained item stays, with what the start-up must remember of the nights (log 39), and a LOW backup
supply sets the latch; without main power the latch, once set,
stays through every command but the power-up; GOOD to LOW appends one BACKUP_LOW, LOW to GOOD nothing. -/
def Obligations.SupplyCommandsAct : Prop :=
  ∀ s : State,
    (s.retention.powered = false → s.retention.latch = true →
      exec (.powerUp .good) s = .next { State.reset with pending := s.pending } ∧
      exec (.powerUp .low) s = .next { State.reset with
        pending := s.pending
        events := ⟨[⟨0, .retentionLapsed, 0, 0, 0⟩, ⟨1, .backupLow, 0, 0, 0⟩], 2, ⟨0, 0, 0⟩⟩
        retention := ⟨true, .lapsed, false, .low⟩ } ∧
      ∀ i, (∀ b, i ≠ .powerUp b) → ∃ t, exec i s = .next t ∧ t.retention = s.retention) ∧
    (s.retention.powered = false → ∀ b, ∃ t, exec (.powerUp b) s = .next t ∧
      t.retention = ⟨true, if s.retention.latch then .lapsed else .intact, false, b⟩) ∧
    (s.retention.powered = true →
      (∃ t, exec .resetLine s = .next t ∧ t.retention = s.retention ∧ t.config.hold = none ∧
        ∀ p, (t.port p).queue = []) ∧
      (∃ t, exec .mainPowerLoss s = .next t ∧
        t.retention = { s.retention with
          powered := false, latch := decide (s.retention.backup = .low) } ∧
        t.calendar.t = s.calendar.t ∧ t.calendar.valid = s.calendar.valid ∧
        t.calendar.rules = s.calendar.rules ∧ t.calendar.leftOut = (match s.calendar.cycle with
          | .settling n => insertIdx s.calendar.leftOut n.date
          | .halted | .day _ | .opened _ | .grace _ => s.calendar.leftOut) ∧
        t.calendar.brokenOff = (match s.calendar.cycle with
          | .opened n | .grace n => .collecting n.date
          | .settling n => .settling n.date
          | .halted | .day _ => .nothing) ∧
        t.config = { s.config with hold := none } ∧ t.districts = s.districts ∧ t.intake.runtime = s.intake.runtime ∧
        t.suspensions = s.suspensions ∧ ∀ p, (t.port p).settings = (s.port p).settings) ∧
      (s.retention.backup = .good → exec .backupGoodToLow s =
        .next (({ s with retention := { s.retention with backup := .low } }).append
          .backupLow 0 (eventNight s) 0)) ∧
      (s.retention.backup = .low → exec .backupLowToGood s =
        .next { s with retention := { s.retention with backup := .good } })) ∧
    (s.retention.powered = false → exec .backupLatchSet s =
      .next { s with retention := { s.retention with latch := true } })

/-! ### The laws that every step keeps -/

/-- Section 8.4, the law of the queue: every step keeps it. -/
def Obligations.StepKeepsEventQueueLaw : Prop :=
  ∀ s t : State, s.events.Lawful → step s = .next t → t.events.Lawful

/-- Sections 3.1, 3.3 and 3.4, the law of the night cycle: every step keeps it, so no boundary that t has reached
is ever left waiting (a tick fires the boundary it reaches: log 5). That the phase of a part without main power is HALTED
is the model's choice (log 10). -/
def Obligations.StepKeepsNightCycleLaw : Prop :=
  ∀ s t : State, CycleLawful s → step s = .next t → CycleLawful t

/-- Section 8.2, the law of the history: every step keeps it. -/
def Obligations.StepKeepsHistoryLaw : Prop :=
  ∀ s t : State, HistoryLawful s → step s = .next t → HistoryLawful t

/-- Section 5.1, the law of alarm states: every step keeps it, the ranges of the night counts with it. -/
def Obligations.StepKeepsAlarmLaw : Prop :=
  ∀ s t : State, AlarmsLawful s → step s = .next t → AlarmsLawful t

/-- Section 2.5, the law of the active set: every step keeps it, and the pending set has its properties too. Section
2.6, the law of the night's configuration: from window start to settlement end, in OPEN, GRACE and SETTLING, no step
changes the active set or its generation, but for the settlement end itself when it is due and a start-up by the reset
line. -/
def Obligations.StepKeepsActiveSetLaw : Prop :=
  ∀ s t : State, step s = .next t →
    (SetsLawful s → SetsLawful t) ∧
    ∀ n, CycleLawful s →
      (s.calendar.cycle = .opened n ∨ s.calendar.cycle = .grace n ∨ s.calendar.cycle = .settling n) →
      (∀ rest, s.pending = .settlementEnd :: rest →
        s.calendar.cycle ≠ .settling n ∨ s.settlement ≠ none) →
      (∀ rest, s.pending ≠ .resetLine :: rest) →
      t.config.active = s.config.active ∧ t.config.generation = s.config.generation

/-- Sections 4.6 and 8.1, the law of the bound: every step keeps every baseline and every recorded normalised leakage
and baseline within the normalisation bound, with the ranges of slot values and of term lists that it rests on. -/
def Obligations.StepKeepsBoundLaw : Prop :=
  ∀ s t : State, BoundLawful s → step s = .next t → BoundLawful t

/-- Section 6.2, the law of one burst per night, as every step keeps it: a burst entry is held only in the night it
names, for a district with its burst-raised mark set; a new one is held only for a district whose mark was clear, in a
night not DISTURBED; and while a night stays current, through OPEN, GRACE and SETTLING, no step but a start-up by the
reset line clears the mark, or the DISTURBED mark. (A night that section 3.6's table plans a second time is watched
again: log 39.) -/
def Obligations.StepKeepsOneBurstPerNight : Prop :=
  ∀ s t : State, CycleLawful s → BurstLawful s → step s = .next t →
    let inWindow (u : State) (n : NightPlan) : Prop :=
      u.calendar.cycle = .opened n ∨ u.calendar.cycle = .grace n
    BurstLawful t ∧
    (∀ d n, tget s.burst.held d = none → tget t.burst.held d = some n →
      d ∉ s.burst.raised ∧ d ∈ t.burst.raised ∧ s.calendar.disturbed = false) ∧
    ∀ n, ((inWindow s n ∧ (inWindow t n ∨ t.calendar.cycle = .settling n)) ∨
        (s.calendar.cycle = .settling n ∧ t.calendar.cycle = .settling n)) →
      (∀ rest, s.pending ≠ .resetLine :: rest) →
      (∀ d ∈ s.burst.raised, d ∈ t.burst.raised) ∧
      (s.calendar.disturbed = true → t.calendar.disturbed = true)

/-- Section 4.2, the law of one settlement per night, over every command: a district that keeps its place never has
its last settled night go back or be lost; and the districts that hold a runtime stay districts of the active
set. Section 4.1: a start-up that ends a settlement enters the cycle at a later night, and the night whose settlement it
has ended is never planned or current again, by a start-up, a settlement end or an entry at a first setting, until
retention lapses (the nights remembered, and that sections 3.4 to 3.6 pass them over: log 39). -/
def Obligations.LastSettledNightNeverGoesBack : Prop :=
  (∀ s t : State, TableFits s → step s = .next t →
    TableFits t ∧
    ∀ d r r' n, tget s.districts d = some r → tget t.districts d = some r' →
      r.lastSettled = some n → ∃ n', r'.lastSettled = some n' ∧ n ≤ n') ∧
  (∀ s t : State, step s = .next t →
    (NightsLawful s → NightsLawful t) ∧
    ((s.retention.powered = false → s.retention.latch = false) →
      ∀ d ∈ s.calendar.leftOut, d ∈ t.calendar.leftOut)) ∧
  (∀ s t : State, s.retention.powered = true → exec .resetLine s = .next t →
    ∀ n, s.calendar.cycle = .settling n → n.date ∈ t.calendar.leftOut ∧
      ∀ p, carriedPlan t.calendar.cycle = some p → n.date < p.date) ∧
  ∀ (s t : State) (b : BackupState), s.retention.powered = false → exec (.powerUp b) s = .next t →
    ∀ p n, carriedPlan t.calendar.cycle = some p → s.calendar.brokenOff = .settling n → n < p.date

/-- Sections 9.1 to 9.7, 7.1, 2.4 and 4.1: every step keeps the limits of the ports, the first two parts of the law of
the Suspension List (at most 16 entries, for distinct meters of the active set; its third part, an until-night later
than the last settled night, is left out, since section 7.2 admits others after a re-entry at an earlier date: log 37),
the law of the hold, that a run exists only for the night in SETTLING, and the canonical form of every keyed table
and index set (the model's own form of the manual's tables, log 26, so that equal tables are equal data). -/
def Obligations.StepKeepsBlockLaws : Prop :=
  ∀ s t : State, step s = .next t →
    (PortsLawful s → PortsLawful t) ∧ (SuspensionsLawful s → SuspensionsLawful t) ∧
    (HoldLawful s → HoldLawful t) ∧ (RunLawful s → RunLawful t) ∧ (Canonical s → Canonical t)

/-- Every law above holds at reset (the state of a LAPSED power-up with a GOOD backup supply, log 25), and so do
the values that sections 2.8, 3.7, 4.1, 8.4, 9.7 and 11.2 give. -/
def Obligations.ResetIsLawful : Prop :=
  let s := State.reset
  s.events.Lawful ∧ CycleLawful s ∧ HistoryLawful s ∧ AlarmsLawful s ∧ SetsLawful s ∧
  BoundLawful s ∧ NightsLawful s ∧ BurstLawful s ∧ TableFits s ∧ PortsLawful s ∧ SuspensionsLawful s ∧ HoldLawful s ∧
  RunLawful s ∧ Canonical s ∧
  s.config.active = ⟨[], [], ⟨8, 8, 8⟩⟩ ∧ s.config.generation = 0 ∧ s.calendar.t = 0 ∧
  s.calendar.valid = false ∧ s.calendar.cycle = .halted ∧ s.settlement = none ∧
  s.events.entries = [⟨0, .retentionLapsed, 0, 0, 0⟩] ∧
  (s.port .a).settings = ⟨0x10, .b9600⟩ ∧ (s.port .b).settings = ⟨0x20, .b9600⟩ ∧
  (s.port .c).settings = ⟨0x30, .b9600⟩ ∧ ∀ p, (s.port p).mask = 0xF
end

