-- ==== Sys2Proof/Laws/State.lean ====
section
/-!
SUPPORT. The fields of a state after each named update, one lemma each, true by rfl.
-/

namespace Sys2Proof.Machine

variable (s : State)

/-! ### setIntake -/

@[simp] theorem State.setIntake_pending (x : Intake) : (s.setIntake x).pending = s.pending := rfl
@[simp] theorem State.setIntake_intake (x : Intake) : (s.setIntake x).intake = x := rfl
@[simp] theorem State.setIntake_config (x : Intake) : (s.setIntake x).config = s.config := rfl
@[simp] theorem State.setIntake_calendar (x : Intake) : (s.setIntake x).calendar = s.calendar := rfl
@[simp] theorem State.setIntake_settlement (x : Intake) : (s.setIntake x).settlement = s.settlement := rfl
@[simp] theorem State.setIntake_districts (x : Intake) : (s.setIntake x).districts = s.districts := rfl
@[simp] theorem State.setIntake_burst (x : Intake) : (s.setIntake x).burst = s.burst := rfl
@[simp] theorem State.setIntake_suspensions (x : Intake) : (s.setIntake x).suspensions = s.suspensions := rfl
@[simp] theorem State.setIntake_history (x : Intake) : (s.setIntake x).history = s.history := rfl
@[simp] theorem State.setIntake_events (x : Intake) : (s.setIntake x).events = s.events := rfl
@[simp] theorem State.setIntake_ports (x : Intake) : (s.setIntake x).ports = s.ports := rfl
@[simp] theorem State.setIntake_retention (x : Intake) : (s.setIntake x).retention = s.retention := rfl

/-! ### setConfig -/

@[simp] theorem State.setConfig_pending (x : ConfigStore) : (s.setConfig x).pending = s.pending := rfl
@[simp] theorem State.setConfig_intake (x : ConfigStore) : (s.setConfig x).intake = s.intake := rfl
@[simp] theorem State.setConfig_config (x : ConfigStore) : (s.setConfig x).config = x := rfl
@[simp] theorem State.setConfig_calendar (x : ConfigStore) : (s.setConfig x).calendar = s.calendar := rfl
@[simp] theorem State.setConfig_settlement (x : ConfigStore) : (s.setConfig x).settlement = s.settlement := rfl
@[simp] theorem State.setConfig_districts (x : ConfigStore) : (s.setConfig x).districts = s.districts := rfl
@[simp] theorem State.setConfig_burst (x : ConfigStore) : (s.setConfig x).burst = s.burst := rfl
@[simp] theorem State.setConfig_suspensions (x : ConfigStore) : (s.setConfig x).suspensions = s.suspensions := rfl
@[simp] theorem State.setConfig_history (x : ConfigStore) : (s.setConfig x).history = s.history := rfl
@[simp] theorem State.setConfig_events (x : ConfigStore) : (s.setConfig x).events = s.events := rfl
@[simp] theorem State.setConfig_ports (x : ConfigStore) : (s.setConfig x).ports = s.ports := rfl
@[simp] theorem State.setConfig_retention (x : ConfigStore) : (s.setConfig x).retention = s.retention := rfl

/-! ### setCalendar -/

@[simp] theorem State.setCalendar_pending (x : Calendar) : (s.setCalendar x).pending = s.pending := rfl
@[simp] theorem State.setCalendar_intake (x : Calendar) : (s.setCalendar x).intake = s.intake := rfl
@[simp] theorem State.setCalendar_config (x : Calendar) : (s.setCalendar x).config = s.config := rfl
@[simp] theorem State.setCalendar_calendar (x : Calendar) : (s.setCalendar x).calendar = x := rfl
@[simp] theorem State.setCalendar_settlement (x : Calendar) : (s.setCalendar x).settlement = s.settlement := rfl
@[simp] theorem State.setCalendar_districts (x : Calendar) : (s.setCalendar x).districts = s.districts := rfl
@[simp] theorem State.setCalendar_burst (x : Calendar) : (s.setCalendar x).burst = s.burst := rfl
@[simp] theorem State.setCalendar_suspensions (x : Calendar) : (s.setCalendar x).suspensions = s.suspensions := rfl
@[simp] theorem State.setCalendar_history (x : Calendar) : (s.setCalendar x).history = s.history := rfl
@[simp] theorem State.setCalendar_events (x : Calendar) : (s.setCalendar x).events = s.events := rfl
@[simp] theorem State.setCalendar_ports (x : Calendar) : (s.setCalendar x).ports = s.ports := rfl
@[simp] theorem State.setCalendar_retention (x : Calendar) : (s.setCalendar x).retention = s.retention := rfl

/-! ### setSettlement -/

@[simp] theorem State.setSettlement_pending (x : Option Run) : (s.setSettlement x).pending = s.pending := rfl
@[simp] theorem State.setSettlement_intake (x : Option Run) : (s.setSettlement x).intake = s.intake := rfl
@[simp] theorem State.setSettlement_config (x : Option Run) : (s.setSettlement x).config = s.config := rfl
@[simp] theorem State.setSettlement_calendar (x : Option Run) : (s.setSettlement x).calendar = s.calendar := rfl
@[simp] theorem State.setSettlement_settlement (x : Option Run) : (s.setSettlement x).settlement = x := rfl
@[simp] theorem State.setSettlement_districts (x : Option Run) : (s.setSettlement x).districts = s.districts := rfl
@[simp] theorem State.setSettlement_burst (x : Option Run) : (s.setSettlement x).burst = s.burst := rfl
@[simp] theorem State.setSettlement_suspensions (x : Option Run) : (s.setSettlement x).suspensions = s.suspensions := rfl
@[simp] theorem State.setSettlement_history (x : Option Run) : (s.setSettlement x).history = s.history := rfl
@[simp] theorem State.setSettlement_events (x : Option Run) : (s.setSettlement x).events = s.events := rfl
@[simp] theorem State.setSettlement_ports (x : Option Run) : (s.setSettlement x).ports = s.ports := rfl
@[simp] theorem State.setSettlement_retention (x : Option Run) : (s.setSettlement x).retention = s.retention := rfl

/-! ### setDistricts -/

@[simp] theorem State.setDistricts_pending (x : Tbl DistrictRuntime) : (s.setDistricts x).pending = s.pending := rfl
@[simp] theorem State.setDistricts_intake (x : Tbl DistrictRuntime) : (s.setDistricts x).intake = s.intake := rfl
@[simp] theorem State.setDistricts_config (x : Tbl DistrictRuntime) : (s.setDistricts x).config = s.config := rfl
@[simp] theorem State.setDistricts_calendar (x : Tbl DistrictRuntime) : (s.setDistricts x).calendar = s.calendar := rfl
@[simp] theorem State.setDistricts_settlement (x : Tbl DistrictRuntime) : (s.setDistricts x).settlement = s.settlement := rfl
@[simp] theorem State.setDistricts_districts (x : Tbl DistrictRuntime) : (s.setDistricts x).districts = x := rfl
@[simp] theorem State.setDistricts_burst (x : Tbl DistrictRuntime) : (s.setDistricts x).burst = s.burst := rfl
@[simp] theorem State.setDistricts_suspensions (x : Tbl DistrictRuntime) : (s.setDistricts x).suspensions = s.suspensions := rfl
@[simp] theorem State.setDistricts_history (x : Tbl DistrictRuntime) : (s.setDistricts x).history = s.history := rfl
@[simp] theorem State.setDistricts_events (x : Tbl DistrictRuntime) : (s.setDistricts x).events = s.events := rfl
@[simp] theorem State.setDistricts_ports (x : Tbl DistrictRuntime) : (s.setDistricts x).ports = s.ports := rfl
@[simp] theorem State.setDistricts_retention (x : Tbl DistrictRuntime) : (s.setDistricts x).retention = s.retention := rfl

/-! ### setBurst -/

@[simp] theorem State.setBurst_pending (x : BurstWatch) : (s.setBurst x).pending = s.pending := rfl
@[simp] theorem State.setBurst_intake (x : BurstWatch) : (s.setBurst x).intake = s.intake := rfl
@[simp] theorem State.setBurst_config (x : BurstWatch) : (s.setBurst x).config = s.config := rfl
@[simp] theorem State.setBurst_calendar (x : BurstWatch) : (s.setBurst x).calendar = s.calendar := rfl
@[simp] theorem State.setBurst_settlement (x : BurstWatch) : (s.setBurst x).settlement = s.settlement := rfl
@[simp] theorem State.setBurst_districts (x : BurstWatch) : (s.setBurst x).districts = s.districts := rfl
@[simp] theorem State.setBurst_burst (x : BurstWatch) : (s.setBurst x).burst = x := rfl
@[simp] theorem State.setBurst_suspensions (x : BurstWatch) : (s.setBurst x).suspensions = s.suspensions := rfl
@[simp] theorem State.setBurst_history (x : BurstWatch) : (s.setBurst x).history = s.history := rfl
@[simp] theorem State.setBurst_events (x : BurstWatch) : (s.setBurst x).events = s.events := rfl
@[simp] theorem State.setBurst_ports (x : BurstWatch) : (s.setBurst x).ports = s.ports := rfl
@[simp] theorem State.setBurst_retention (x : BurstWatch) : (s.setBurst x).retention = s.retention := rfl

/-! ### setSuspensions -/

@[simp] theorem State.setSuspensions_pending (x : Tbl Suspension) : (s.setSuspensions x).pending = s.pending := rfl
@[simp] theorem State.setSuspensions_intake (x : Tbl Suspension) : (s.setSuspensions x).intake = s.intake := rfl
@[simp] theorem State.setSuspensions_config (x : Tbl Suspension) : (s.setSuspensions x).config = s.config := rfl
@[simp] theorem State.setSuspensions_calendar (x : Tbl Suspension) : (s.setSuspensions x).calendar = s.calendar := rfl
@[simp] theorem State.setSuspensions_settlement (x : Tbl Suspension) : (s.setSuspensions x).settlement = s.settlement := rfl
@[simp] theorem State.setSuspensions_districts (x : Tbl Suspension) : (s.setSuspensions x).districts = s.districts := rfl
@[simp] theorem State.setSuspensions_burst (x : Tbl Suspension) : (s.setSuspensions x).burst = s.burst := rfl
@[simp] theorem State.setSuspensions_suspensions (x : Tbl Suspension) : (s.setSuspensions x).suspensions = x := rfl
@[simp] theorem State.setSuspensions_history (x : Tbl Suspension) : (s.setSuspensions x).history = s.history := rfl
@[simp] theorem State.setSuspensions_events (x : Tbl Suspension) : (s.setSuspensions x).events = s.events := rfl
@[simp] theorem State.setSuspensions_ports (x : Tbl Suspension) : (s.setSuspensions x).ports = s.ports := rfl
@[simp] theorem State.setSuspensions_retention (x : Tbl Suspension) : (s.setSuspensions x).retention = s.retention := rfl

/-! ### setHistory -/

@[simp] theorem State.setHistory_pending (x : Tbl (List NightRecord)) : (s.setHistory x).pending = s.pending := rfl
@[simp] theorem State.setHistory_intake (x : Tbl (List NightRecord)) : (s.setHistory x).intake = s.intake := rfl
@[simp] theorem State.setHistory_config (x : Tbl (List NightRecord)) : (s.setHistory x).config = s.config := rfl
@[simp] theorem State.setHistory_calendar (x : Tbl (List NightRecord)) : (s.setHistory x).calendar = s.calendar := rfl
@[simp] theorem State.setHistory_settlement (x : Tbl (List NightRecord)) : (s.setHistory x).settlement = s.settlement := rfl
@[simp] theorem State.setHistory_districts (x : Tbl (List NightRecord)) : (s.setHistory x).districts = s.districts := rfl
@[simp] theorem State.setHistory_burst (x : Tbl (List NightRecord)) : (s.setHistory x).burst = s.burst := rfl
@[simp] theorem State.setHistory_suspensions (x : Tbl (List NightRecord)) : (s.setHistory x).suspensions = s.suspensions := rfl
@[simp] theorem State.setHistory_history (x : Tbl (List NightRecord)) : (s.setHistory x).history = x := rfl
@[simp] theorem State.setHistory_events (x : Tbl (List NightRecord)) : (s.setHistory x).events = s.events := rfl
@[simp] theorem State.setHistory_ports (x : Tbl (List NightRecord)) : (s.setHistory x).ports = s.ports := rfl
@[simp] theorem State.setHistory_retention (x : Tbl (List NightRecord)) : (s.setHistory x).retention = s.retention := rfl

/-! ### setEvents -/

@[simp] theorem State.setEvents_pending (x : EventQueue) : (s.setEvents x).pending = s.pending := rfl
@[simp] theorem State.setEvents_intake (x : EventQueue) : (s.setEvents x).intake = s.intake := rfl
@[simp] theorem State.setEvents_config (x : EventQueue) : (s.setEvents x).config = s.config := rfl
@[simp] theorem State.setEvents_calendar (x : EventQueue) : (s.setEvents x).calendar = s.calendar := rfl
@[simp] theorem State.setEvents_settlement (x : EventQueue) : (s.setEvents x).settlement = s.settlement := rfl
@[simp] theorem State.setEvents_districts (x : EventQueue) : (s.setEvents x).districts = s.districts := rfl
@[simp] theorem State.setEvents_burst (x : EventQueue) : (s.setEvents x).burst = s.burst := rfl
@[simp] theorem State.setEvents_suspensions (x : EventQueue) : (s.setEvents x).suspensions = s.suspensions := rfl
@[simp] theorem State.setEvents_history (x : EventQueue) : (s.setEvents x).history = s.history := rfl
@[simp] theorem State.setEvents_events (x : EventQueue) : (s.setEvents x).events = x := rfl
@[simp] theorem State.setEvents_ports (x : EventQueue) : (s.setEvents x).ports = s.ports := rfl
@[simp] theorem State.setEvents_retention (x : EventQueue) : (s.setEvents x).retention = s.retention := rfl

/-! ### setPorts -/

@[simp] theorem State.setPorts_pending (x : PerPort PortState) : (s.setPorts x).pending = s.pending := rfl
@[simp] theorem State.setPorts_intake (x : PerPort PortState) : (s.setPorts x).intake = s.intake := rfl
@[simp] theorem State.setPorts_config (x : PerPort PortState) : (s.setPorts x).config = s.config := rfl
@[simp] theorem State.setPorts_calendar (x : PerPort PortState) : (s.setPorts x).calendar = s.calendar := rfl
@[simp] theorem State.setPorts_settlement (x : PerPort PortState) : (s.setPorts x).settlement = s.settlement := rfl
@[simp] theorem State.setPorts_districts (x : PerPort PortState) : (s.setPorts x).districts = s.districts := rfl
@[simp] theorem State.setPorts_burst (x : PerPort PortState) : (s.setPorts x).burst = s.burst := rfl
@[simp] theorem State.setPorts_suspensions (x : PerPort PortState) : (s.setPorts x).suspensions = s.suspensions := rfl
@[simp] theorem State.setPorts_history (x : PerPort PortState) : (s.setPorts x).history = s.history := rfl
@[simp] theorem State.setPorts_events (x : PerPort PortState) : (s.setPorts x).events = s.events := rfl
@[simp] theorem State.setPorts_ports (x : PerPort PortState) : (s.setPorts x).ports = x := rfl
@[simp] theorem State.setPorts_retention (x : PerPort PortState) : (s.setPorts x).retention = s.retention := rfl

/-! ### setRetention -/

@[simp] theorem State.setRetention_pending (x : Retention) : (s.setRetention x).pending = s.pending := rfl
@[simp] theorem State.setRetention_intake (x : Retention) : (s.setRetention x).intake = s.intake := rfl
@[simp] theorem State.setRetention_config (x : Retention) : (s.setRetention x).config = s.config := rfl
@[simp] theorem State.setRetention_calendar (x : Retention) : (s.setRetention x).calendar = s.calendar := rfl
@[simp] theorem State.setRetention_settlement (x : Retention) : (s.setRetention x).settlement = s.settlement := rfl
@[simp] theorem State.setRetention_districts (x : Retention) : (s.setRetention x).districts = s.districts := rfl
@[simp] theorem State.setRetention_burst (x : Retention) : (s.setRetention x).burst = s.burst := rfl
@[simp] theorem State.setRetention_suspensions (x : Retention) : (s.setRetention x).suspensions = s.suspensions := rfl
@[simp] theorem State.setRetention_history (x : Retention) : (s.setRetention x).history = s.history := rfl
@[simp] theorem State.setRetention_events (x : Retention) : (s.setRetention x).events = s.events := rfl
@[simp] theorem State.setRetention_ports (x : Retention) : (s.setRetention x).ports = s.ports := rfl
@[simp] theorem State.setRetention_retention (x : Retention) : (s.setRetention x).retention = x := rfl

/-! ### setPort and setHold -/

@[simp] theorem State.setPort_pending (p : Port) (x : PortState) : (s.setPort p x).pending = s.pending := rfl
@[simp] theorem State.setPort_intake (p : Port) (x : PortState) : (s.setPort p x).intake = s.intake := rfl
@[simp] theorem State.setPort_config (p : Port) (x : PortState) : (s.setPort p x).config = s.config := rfl
@[simp] theorem State.setPort_calendar (p : Port) (x : PortState) : (s.setPort p x).calendar = s.calendar := rfl
@[simp] theorem State.setPort_settlement (p : Port) (x : PortState) : (s.setPort p x).settlement = s.settlement := rfl
@[simp] theorem State.setPort_districts (p : Port) (x : PortState) : (s.setPort p x).districts = s.districts := rfl
@[simp] theorem State.setPort_burst (p : Port) (x : PortState) : (s.setPort p x).burst = s.burst := rfl
@[simp] theorem State.setPort_suspensions (p : Port) (x : PortState) : (s.setPort p x).suspensions = s.suspensions := rfl
@[simp] theorem State.setPort_history (p : Port) (x : PortState) : (s.setPort p x).history = s.history := rfl
@[simp] theorem State.setPort_events (p : Port) (x : PortState) : (s.setPort p x).events = s.events := rfl
@[simp] theorem State.setPort_retention (p : Port) (x : PortState) : (s.setPort p x).retention = s.retention := rfl
@[simp] theorem State.setPort_ports (p : Port) (x : PortState) :
    (s.setPort p x).ports = s.ports.set p x := rfl
@[simp] theorem State.setHold_pending (h : Option Hold) : (s.setHold h).pending = s.pending := rfl
@[simp] theorem State.setHold_intake (h : Option Hold) : (s.setHold h).intake = s.intake := rfl
@[simp] theorem State.setHold_calendar (h : Option Hold) : (s.setHold h).calendar = s.calendar := rfl
@[simp] theorem State.setHold_settlement (h : Option Hold) : (s.setHold h).settlement = s.settlement := rfl
@[simp] theorem State.setHold_districts (h : Option Hold) : (s.setHold h).districts = s.districts := rfl
@[simp] theorem State.setHold_burst (h : Option Hold) : (s.setHold h).burst = s.burst := rfl
@[simp] theorem State.setHold_suspensions (h : Option Hold) : (s.setHold h).suspensions = s.suspensions := rfl
@[simp] theorem State.setHold_history (h : Option Hold) : (s.setHold h).history = s.history := rfl
@[simp] theorem State.setHold_events (h : Option Hold) : (s.setHold h).events = s.events := rfl
@[simp] theorem State.setHold_ports (h : Option Hold) : (s.setHold h).ports = s.ports := rfl
@[simp] theorem State.setHold_retention (h : Option Hold) : (s.setHold h).retention = s.retention := rfl
@[simp] theorem State.setHold_config (h : Option Hold) :
    (s.setHold h).config = { s.config with hold := h } := rfl

/-! ### The ports -/

variable {α β : Type}

@[simp] theorem PerPort.get_set_self (x : PerPort α) (p : Port) (v : α) : (x.set p v).get p = v := by
  cases p <;> rfl

theorem PerPort.get_set_ne (x : PerPort α) (p q : Port) (v : α) (h : q ≠ p) :
    (x.set p v).get q = x.get q := by
  cases p <;> cases q <;> first | rfl | exact absurd rfl h

theorem PerPort.get_set (x : PerPort α) (p q : Port) (v : α) :
    (x.set p v).get q = if q = p then v else x.get q := by
  cases p <;> cases q <;> rfl

@[simp] theorem PerPort.set_set (x : PerPort α) (p : Port) (v w : α) :
    (x.set p v).set p w = x.set p w := by
  cases p <;> rfl

@[simp] theorem PerPort.set_get (x : PerPort α) (p : Port) : x.set p (x.get p) = x := by
  cases p <;> rfl

@[simp] theorem PerPort.get_map (f : α → β) (x : PerPort α) (p : Port) :
    (x.map f).get p = f (x.get p) := by
  cases p <;> rfl

@[simp] theorem State.port_setPort_self (p : Port) (x : PortState) : (s.setPort p x).port p = x := by
  simp [State.port]

theorem State.port_setPort_ne (p q : Port) (x : PortState) (h : q ≠ p) :
    (s.setPort p x).port q = s.port q := by
  simp [State.port, PerPort.get_set_ne _ _ _ _ h]

@[simp] theorem State.setPort_setPort (p : Port) (x y : PortState) :
    (s.setPort p x).setPort p y = s.setPort p y := by
  simp [State.setPort, State.setPorts]

@[simp] theorem State.setPort_port (p : Port) : s.setPort p (s.port p) = s := by
  simp [State.setPort, State.setPorts, State.port]

end Sys2Proof.Machine
end

