-- ==== Sys2Proof/Laws/Append.lean ====
section
/-!
SUPPORT. What an append to the Event Queue leaves alone, and what it reads: the event queue and the ports, and
nothing else.
-/

namespace Sys2Proof.Machine

variable (s : State) (kind : EventKind) (subject night : Nat) (detail : Int)

/-- An append changes the event queue and the ports alone. -/
theorem State.makeRoom_frame :
    s.makeRoom = { s with events := s.makeRoom.events, ports := s.makeRoom.ports } := by
  unfold State.makeRoom
  split
  · rfl
  · split <;> rfl

@[simp] theorem State.makeRoom_pending : s.makeRoom.pending = s.pending := by
  rw [State.makeRoom_frame]

@[simp] theorem State.makeRoom_intake : s.makeRoom.intake = s.intake := by
  rw [State.makeRoom_frame]

@[simp] theorem State.makeRoom_config : s.makeRoom.config = s.config := by
  rw [State.makeRoom_frame]

@[simp] theorem State.makeRoom_calendar : s.makeRoom.calendar = s.calendar := by
  rw [State.makeRoom_frame]

@[simp] theorem State.makeRoom_settlement : s.makeRoom.settlement = s.settlement := by
  rw [State.makeRoom_frame]

@[simp] theorem State.makeRoom_districts : s.makeRoom.districts = s.districts := by
  rw [State.makeRoom_frame]

@[simp] theorem State.makeRoom_burst : s.makeRoom.burst = s.burst := by
  rw [State.makeRoom_frame]

@[simp] theorem State.makeRoom_suspensions : s.makeRoom.suspensions = s.suspensions := by
  rw [State.makeRoom_frame]

@[simp] theorem State.makeRoom_history : s.makeRoom.history = s.history := by
  rw [State.makeRoom_frame]

@[simp] theorem State.makeRoom_retention : s.makeRoom.retention = s.retention := by
  rw [State.makeRoom_frame]

@[simp] theorem State.append_pending :
    (s.append kind subject night detail).pending = s.pending := by
  simp [State.append]

@[simp] theorem State.append_intake :
    (s.append kind subject night detail).intake = s.intake := by
  simp [State.append]

@[simp] theorem State.append_config :
    (s.append kind subject night detail).config = s.config := by
  simp [State.append]

@[simp] theorem State.append_calendar :
    (s.append kind subject night detail).calendar = s.calendar := by
  simp [State.append]

@[simp] theorem State.append_settlement :
    (s.append kind subject night detail).settlement = s.settlement := by
  simp [State.append]

@[simp] theorem State.append_districts :
    (s.append kind subject night detail).districts = s.districts := by
  simp [State.append]

@[simp] theorem State.append_burst :
    (s.append kind subject night detail).burst = s.burst := by
  simp [State.append]

@[simp] theorem State.append_suspensions :
    (s.append kind subject night detail).suspensions = s.suspensions := by
  simp [State.append]

@[simp] theorem State.append_history :
    (s.append kind subject night detail).history = s.history := by
  simp [State.append]

@[simp] theorem State.append_retention :
    (s.append kind subject night detail).retention = s.retention := by
  simp [State.append]

/-- What making room does is decided by the event queue and the ports. -/
theorem State.makeRoom_congr (t : State) (he : s.events = t.events) (hp : s.ports = t.ports) :
    s.makeRoom.events = t.makeRoom.events ∧ s.makeRoom.ports = t.makeRoom.ports := by
  unfold State.makeRoom
  rw [he]
  split
  · exact ⟨he, hp⟩
  · split
    · exact ⟨he, hp⟩
    · simp [hp]

/-- What an append does is decided by the event queue and the ports. -/
theorem State.append_congr (t : State) (he : s.events = t.events) (hp : s.ports = t.ports) :
    (s.append kind subject night detail).events = (t.append kind subject night detail).events ∧
      (s.append kind subject night detail).ports = (t.append kind subject night detail).ports := by
  obtain ⟨h1, h2⟩ := State.makeRoom_congr s t he hp
  simp [State.append, h1, h2]

/-- Two states that agree in every field are equal. -/
theorem State.ext_fields {s t : State} (h1 : s.pending = t.pending) (h2 : s.intake = t.intake)
    (h3 : s.config = t.config) (h4 : s.calendar = t.calendar) (h5 : s.settlement = t.settlement)
    (h6 : s.districts = t.districts) (h7 : s.burst = t.burst) (h8 : s.suspensions = t.suspensions)
    (h9 : s.history = t.history) (h10 : s.events = t.events) (h11 : s.ports = t.ports)
    (h12 : s.retention = t.retention) : s = t := by
  cases s; cases t; simp_all

/-! ### The parts of a port that a loss of an entry leaves alone -/

@[simp] theorem PortState.loseEntry_settings (x : PortState) : x.loseEntry.settings = x.settings := rfl
@[simp] theorem PortState.loseEntry_line (x : PortState) : x.loseEntry.line = x.line := rfl
@[simp] theorem PortState.loseEntry_change (x : PortState) : x.loseEntry.change = x.change := rfl
@[simp] theorem PortState.loseEntry_receiver (x : PortState) : x.loseEntry.receiver = x.receiver := rfl
@[simp] theorem PortState.loseEntry_queue (x : PortState) : x.loseEntry.queue = x.queue := rfl
@[simp] theorem PortState.loseEntry_transmitter (x : PortState) : x.loseEntry.transmitter = x.transmitter := rfl
@[simp] theorem PortState.loseEntry_noise (x : PortState) : x.loseEntry.noise = x.noise := rfl
@[simp] theorem PortState.loseEntry_discard (x : PortState) : x.loseEntry.discard = x.discard := rfl
@[simp] theorem PortState.loseEntry_bitError (x : PortState) : x.loseEntry.bitError = x.bitError := rfl
@[simp] theorem PortState.loseEntry_link (x : PortState) : x.loseEntry.link = x.link := rfl
@[simp] theorem PortState.loseEntry_mask (x : PortState) : x.loseEntry.mask = x.mask := rfl

@[simp] theorem chargeLost_settings (a b : Serial) (x : PortState) : (chargeLost a b x).settings = x.settings := by
  unfold chargeLost; split <;> rfl

@[simp] theorem chargeLost_line (a b : Serial) (x : PortState) : (chargeLost a b x).line = x.line := by
  unfold chargeLost; split <;> rfl

@[simp] theorem chargeLost_change (a b : Serial) (x : PortState) : (chargeLost a b x).change = x.change := by
  unfold chargeLost; split <;> rfl

@[simp] theorem chargeLost_receiver (a b : Serial) (x : PortState) : (chargeLost a b x).receiver = x.receiver := by
  unfold chargeLost; split <;> rfl

@[simp] theorem chargeLost_queue (a b : Serial) (x : PortState) : (chargeLost a b x).queue = x.queue := by
  unfold chargeLost; split <;> rfl

@[simp] theorem chargeLost_transmitter (a b : Serial) (x : PortState) : (chargeLost a b x).transmitter = x.transmitter := by
  unfold chargeLost; split <;> rfl

@[simp] theorem chargeLost_noise (a b : Serial) (x : PortState) : (chargeLost a b x).noise = x.noise := by
  unfold chargeLost; split <;> rfl

@[simp] theorem chargeLost_discard (a b : Serial) (x : PortState) : (chargeLost a b x).discard = x.discard := by
  unfold chargeLost; split <;> rfl

@[simp] theorem chargeLost_bitError (a b : Serial) (x : PortState) : (chargeLost a b x).bitError = x.bitError := by
  unfold chargeLost; split <;> rfl

@[simp] theorem chargeLost_link (a b : Serial) (x : PortState) : (chargeLost a b x).link = x.link := by
  unfold chargeLost; split <;> rfl

@[simp] theorem chargeLost_mask (a b : Serial) (x : PortState) : (chargeLost a b x).mask = x.mask := by
  unfold chargeLost; split <;> rfl

@[simp] theorem State.append_port_settings (p : Port) :
    ((s.append kind subject night detail).port p).settings = (s.port p).settings := by
  unfold State.append State.makeRoom
  split
  · rfl
  · split
    · rfl
    · cases p <;> simp [State.port, PerPort.get]

@[simp] theorem State.append_port_line (p : Port) :
    ((s.append kind subject night detail).port p).line = (s.port p).line := by
  unfold State.append State.makeRoom
  split
  · rfl
  · split
    · rfl
    · cases p <;> simp [State.port, PerPort.get]

@[simp] theorem State.append_port_change (p : Port) :
    ((s.append kind subject night detail).port p).change = (s.port p).change := by
  unfold State.append State.makeRoom
  split
  · rfl
  · split
    · rfl
    · cases p <;> simp [State.port, PerPort.get]

@[simp] theorem State.append_port_receiver (p : Port) :
    ((s.append kind subject night detail).port p).receiver = (s.port p).receiver := by
  unfold State.append State.makeRoom
  split
  · rfl
  · split
    · rfl
    · cases p <;> simp [State.port, PerPort.get]

@[simp] theorem State.append_port_queue (p : Port) :
    ((s.append kind subject night detail).port p).queue = (s.port p).queue := by
  unfold State.append State.makeRoom
  split
  · rfl
  · split
    · rfl
    · cases p <;> simp [State.port, PerPort.get]

@[simp] theorem State.append_port_transmitter (p : Port) :
    ((s.append kind subject night detail).port p).transmitter = (s.port p).transmitter := by
  unfold State.append State.makeRoom
  split
  · rfl
  · split
    · rfl
    · cases p <;> simp [State.port, PerPort.get]

@[simp] theorem State.append_port_noise (p : Port) :
    ((s.append kind subject night detail).port p).noise = (s.port p).noise := by
  unfold State.append State.makeRoom
  split
  · rfl
  · split
    · rfl
    · cases p <;> simp [State.port, PerPort.get]

@[simp] theorem State.append_port_discard (p : Port) :
    ((s.append kind subject night detail).port p).discard = (s.port p).discard := by
  unfold State.append State.makeRoom
  split
  · rfl
  · split
    · rfl
    · cases p <;> simp [State.port, PerPort.get]

@[simp] theorem State.append_port_bitError (p : Port) :
    ((s.append kind subject night detail).port p).bitError = (s.port p).bitError := by
  unfold State.append State.makeRoom
  split
  · rfl
  · split
    · rfl
    · cases p <;> simp [State.port, PerPort.get]

@[simp] theorem State.append_port_link (p : Port) :
    ((s.append kind subject night detail).port p).link = (s.port p).link := by
  unfold State.append State.makeRoom
  split
  · rfl
  · split
    · rfl
    · cases p <;> simp [State.port, PerPort.get]

@[simp] theorem State.append_port_mask (p : Port) :
    ((s.append kind subject night detail).port p).mask = (s.port p).mask := by
  unfold State.append State.makeRoom
  split
  · rfl
  · split
    · rfl
    · cases p <;> simp [State.port, PerPort.get]

end Sys2Proof.Machine
end

