-- ==== Sys2Proof/Laws/Burst.lean ====
section
/-!
SUPPORT. The order in which a grace end takes the held burst entries is a permutation of the districts that hold
one, whatever the free value of Config is.
-/

namespace Sys2Proof.Machine

theorem placeHeld_perm (rank : Nat → Nat) (d : Nat) (l : List Nat) :
    (placeHeld rank d l).Perm (d :: l) := by
  induction l with
  | nil => exact .refl _
  | cons x rest ih =>
    simp only [placeHeld]
    split
    · exact .refl _
    · exact (ih.cons x).trans (.swap d x rest)

theorem heldOrder_perm (s : State) : (heldOrder s).Perm (tkeys s.burst.held) := by
  unfold heldOrder
  induction tkeys s.burst.held with
  | nil => exact .refl _
  | cons d rest ih => exact (placeHeld_perm _ d _).trans (ih.cons d)

theorem mem_heldOrder (s : State) (d : Nat) : d ∈ heldOrder s ↔ d ∈ tkeys s.burst.held :=
  (heldOrder_perm s).mem_iff

end Sys2Proof.Machine
end

