-- ==== Sys2Proof/Laws/Calendar.lean ====
section
/-!
SUPPORT. The days of the calendar, the date that a daylight-saving rule names, and the year that daylight saving is
judged in, in the manual's words.
-/

namespace Sys2Proof.Machine

/-! ### The days run on (R53) -/

theorem dayOfDate_next_month (y m : Nat) (h : 1 ≤ m) :
    dayOfDate y (m + 1) 1 = dayOfDate y m 1 + monthLength y m := by
  obtain ⟨k, rfl⟩ : ∃ k, m = k + 1 := ⟨m - 1, by omega⟩
  simp only [dayOfDate, daysBeforeMonth, Nat.add_sub_cancel, Nat.sub_self, List.range_succ, List.map_append,
    List.map_cons, List.map_nil, List.sum_append, List.sum_cons, List.sum_nil]
  omega

theorem dayOfDate_day (y m d : Nat) : dayOfDate y m d = dayOfDate y m 1 + (d - 1) := by
  simp only [dayOfDate]
  omega

/-- A year is 366 days where 4 divides it, else 365. -/
theorem dayOfDate_december (y : Nat) :
    dayOfDate y 12 1 + 31 = daysBeforeYear y + (if y % 4 = 0 then 366 else 365) := by
  have h : daysBeforeMonth y 12 + 31 = if y % 4 = 0 then 366 else 365 := by
    have hr : List.range (12 - 1) = [0, 1, 2, 3, 4, 5, 6, 7, 8, 9, 10] := rfl
    simp only [daysBeforeMonth, hr, List.map_cons, List.map_nil, List.sum_cons, List.sum_nil,
      monthLength, leapYear, decide_eq_true_eq]
    split <;> rfl
  simp only [dayOfDate]
  omega

theorem daysBeforeYear_succ (y : Nat) (h : 2000 ≤ y) :
    daysBeforeYear (y + 1) = daysBeforeYear y + if y % 4 = 0 then 366 else 365 := by
  simp only [daysBeforeYear]
  split <;> omega

theorem dayOfDate_next_year (y : Nat) (h : 2000 ≤ y) :
    dayOfDate (y + 1) 1 1 = dayOfDate y 12 1 + 31 := by
  rw [dayOfDate_december, ← daysBeforeYear_succ y h]
  simp [dayOfDate, daysBeforeMonth]

theorem dayOfDate_january (y : Nat) : dayOfDate y 1 1 = daysBeforeYear y := by
  simp [dayOfDate, daysBeforeMonth]

/-- A day between 1 January of a year and 1 January of the next lies in that year. -/
theorem yearOfDay_eq (y d : Nat) (h : 2000 ≤ y) (h1 : dayOfDate y 1 1 ≤ d)
    (h2 : d < dayOfDate (y + 1) 1 1) : yearOfDay d = y := by
  rw [dayOfDate_january] at h1 h2
  rw [daysBeforeYear_succ y h] at h2
  obtain ⟨a, r, rfl, hr⟩ : ∃ a r, y = 2000 + 4 * a + r ∧ r < 4 :=
    ⟨(y - 2000) / 4, (y - 2000) % 4, by omega, by omega⟩
  simp only [daysBeforeYear, yearOfDay] at *
  obtain rfl | rfl | rfl | rfl : r = 0 ∨ r = 1 ∨ r = 2 ∨ r = 3 := by omega
  all_goals
    split at h2 <;> split <;> omega

/-! ### Daylight saving (R60, R61) -/

theorem monthLength_bounds (y m : Nat) : 28 ≤ monthLength y m ∧ monthLength y m ≤ 31 := by
  unfold monthLength
  split <;> (try split) <;> omega

/-- The date that a rule names: of its weekday, in its month, the first to fourth such date, or the last (R60). -/
theorem ruleDay_spec (r : DstRule) (y : Nat) (hw : 1 ≤ r.week) (hw5 : r.week ≤ 5) (hd : r.weekday ≤ 6) :
    weekday (ruleDay r y) = r.weekday ∧ dayOfDate y r.month 1 ≤ ruleDay r y ∧
    ruleDay r y < dayOfDate y r.month 1 + monthLength y r.month ∧
    (r.week ≤ 4 → dayOfDate y r.month 1 + 7 * (r.week - 1) ≤ ruleDay r y ∧
      ruleDay r y < dayOfDate y r.month 1 + 7 * r.week) ∧
    (r.week = 5 → dayOfDate y r.month 1 + monthLength y r.month ≤ ruleDay r y + 7) := by
  have := monthLength_bounds y r.month
  simp only [ruleDay, weekday]
  generalize dayOfDate y r.month 1 = first
  generalize monthLength y r.month = n at *
  by_cases h4 : r.week ≤ 4
  · simp only [h4, if_true]
    omega
  · simp only [h4, if_false]
    by_cases hg : (r.weekday + 7 - (first + 6) % 7) % 7 + 28 < n
    · simp only [hg, if_true]
      omega
    · simp only [hg, if_false]
      refine ⟨?_, ?_, ?_, nofun, fun _ => ?_⟩ <;> omega

/-- Daylight saving is judged by the two instants of t's own year (R61). -/
theorem inForce_iff (rules : DstRules) (t y : Nat) (hy : 2000 ≤ y) (h1 : dayOfDate y 1 1 ≤ t / 86400)
    (h2 : t / 86400 < dayOfDate (y + 1) 1 1) :
    inForce rules t = true ↔ rules.enabled = true ∧
      ((ruleInstant rules.start y < ruleInstant rules.stop y ∧ ruleInstant rules.start y ≤ t ∧
          t < ruleInstant rules.stop y) ∨
        (ruleInstant rules.stop y < ruleInstant rules.start y ∧
          (ruleInstant rules.start y ≤ t ∨ t < ruleInstant rules.stop y))) := by
  have hyear : yearOfDay (dayNumber t) = y := yearOfDay_eq y _ hy h1 h2
  simp only [inForce, hyear, Bool.and_eq_true]
  generalize ruleInstant rules.start y = a
  generalize ruleInstant rules.stop y = b
  refine and_congr_right fun _ => ?_
  split
  · simp only [decide_eq_true_eq]
    omega
  · split
    · simp only [decide_eq_true_eq]
      omega
    · simp only [Bool.false_eq_true, false_iff]
      omega

end Sys2Proof.Machine
end

