-- ==== Sys2Proof/Laws/Night.lean ====
section
/-!
SUPPORT. What the boundaries of the night cycle can do: each in the statements' words, the firing of every boundary
that t has reached once for every event that fires them, and what the taking of held burst entries leaves alone.
-/

namespace Sys2Proof.Machine

/-! ### Taking held burst entries -/

/-- What the taking of one held entry can do: the entry goes, and the table, the Event Queue and the ports' LOST flags
may change. -/
theorem takeHeld_frame (d : Nat) (s : State) :
    takeHeld d s = { s with
      burst := (takeHeld d s).burst, districts := (takeHeld d s).districts,
      events := (takeHeld d s).events, ports := (takeHeld d s).ports } ∧
      (takeHeld d s).burst = { s.burst with held := tdel s.burst.held d } ∨
    takeHeld d s = s := by
  simp only [takeHeld]
  split
  · exact .inr rfl
  · refine .inl ⟨State.ext_fields ?_ ?_ ?_ ?_ ?_ ?_ ?_ ?_ ?_ ?_ ?_ ?_, ?_⟩ <;>
      (simp only [enterBurst, dropHeld] <;> split <;> (try split) <;> simp)

theorem takeHeld_keeps (d : Nat) (s : State) :
    (takeHeld d s).pending = s.pending ∧ (takeHeld d s).intake = s.intake ∧
    (takeHeld d s).config = s.config ∧ (takeHeld d s).calendar = s.calendar ∧
    (takeHeld d s).settlement = s.settlement ∧ (takeHeld d s).suspensions = s.suspensions ∧
    (takeHeld d s).history = s.history ∧ (takeHeld d s).retention = s.retention := by
  rcases takeHeld_frame d s with ⟨h, -⟩ | h <;> rw [h] <;> simp

/-- The taking of every held entry leaves all but the burst watch, the District State Table, the Event Queue and the
ports' LOST flags alone. -/
theorem takeAllHeld_keeps (s : State) :
    (takeAllHeld s).pending = s.pending ∧ (takeAllHeld s).intake = s.intake ∧
    (takeAllHeld s).config = s.config ∧ (takeAllHeld s).calendar = s.calendar ∧
    (takeAllHeld s).settlement = s.settlement ∧ (takeAllHeld s).suspensions = s.suspensions ∧
    (takeAllHeld s).history = s.history ∧ (takeAllHeld s).retention = s.retention := by
  unfold takeAllHeld
  generalize heldOrder s = l
  induction l generalizing s with
  | nil => simp
  | cons d rest ih =>
    have h := takeHeld_keeps d s
    have h' := ih (takeHeld d s)
    simp only [List.foldl_cons]
    simp_all

/-! ### The boundaries -/

theorem enterNight_eq (n : NightPlan) (u : State) : enterNight n u = entersNight n u := by
  cases hh : u.calendar.horizon with
  | none =>
    simp [enterNight, entersNight, beforeHorizon, hh, setUpNight, clearBurst, State.setCalendar,
      State.setIntake, State.setBurst]
  | some h =>
    simp [enterNight, entersNight, beforeHorizon, hh, setUpNight, clearBurst, State.setCalendar,
      State.setIntake, State.setBurst, NightPlan.startsAt, Config.intervalSeconds]
    exact decide_eq_decide.mpr Iff.rfl

theorem closeWindow_eq (n : NightPlan) (u : State) : closeWindow n u = endsWindow n u := rfl

theorem startSettling_eq (n : NightPlan) (u : State) : startSettling n u = endsGrace n u := by
  have h := takeAllHeld_keeps u
  simp [startSettling, endsGrace, startRun, NightPlan.closedWindow, State.setCalendar,
    State.setSettlement, h]

/-- Every boundary that t has reached is fired, in order, and no other. -/
theorem fireDue_firesTo (u : State) : FiresTo u (fireDue u) := by
  have hg (v : State) (n : NightPlan) (hv : v.calendar.cycle = .grace n) :
      fireGraceEnd v = if 900 * n.graceEnd ≤ v.calendar.t then endsGrace n v else v := by
    simp only [fireGraceEnd, hv, startSettling_eq, NightPlan.closesAt, Config.intervalSeconds]
  have hw (v : State) (n : NightPlan) (hv : v.calendar.cycle = .opened n) :
      fireWindowEnd v = if 900 * (n.window + n.length) ≤ v.calendar.t then endsWindow n v else v := by
    simp only [fireWindowEnd, hv, closeWindow_eq]
    rfl
  have hs (v : State) (n : NightPlan) (hv : v.calendar.cycle = .day (some n)) :
      fireWindowStart v = if 900 * n.window ≤ v.calendar.t then entersNight n v else v := by
    simp only [fireWindowStart, hv, enterNight_eq, NightPlan.startsAt, Config.intervalSeconds]
  have opened (v : State) (n : NightPlan) (hv : v.calendar.cycle = .opened n) :
      (v.calendar.t < 900 * (n.window + n.length) → fireGraceEnd (fireWindowEnd v) = v) ∧
      (900 * (n.window + n.length) ≤ v.calendar.t → v.calendar.t < 900 * n.graceEnd →
        fireGraceEnd (fireWindowEnd v) = endsWindow n v) ∧
      (900 * (n.window + n.length) ≤ v.calendar.t → 900 * n.graceEnd ≤ v.calendar.t →
        fireGraceEnd (fireWindowEnd v) = endsGrace n (endsWindow n v)) := by
    rw [hw v n hv]
    refine ⟨fun h => ?_, fun h h' => ?_, fun h h' => ?_⟩
    · rw [if_neg (Nat.not_le.mpr h), fireGraceEnd, hv]
    · rw [if_pos h, hg (endsWindow n v) n rfl, if_neg]
      exact Nat.not_le.mpr h'
    · rw [if_pos h, hg (endsWindow n v) n rfl, if_pos]
      exact h'
  unfold FiresTo fireDue
  cases hc : u.calendar.cycle with
  | halted => simp [fireWindowStart, fireWindowEnd, fireGraceEnd, hc]
  | day p =>
    cases p with
    | none => simp [fireWindowStart, fireWindowEnd, fireGraceEnd, hc]
    | some n =>
      simp only [hs u n hc]
      have h := opened (entersNight n u) n rfl
      refine ⟨fun ht => ?_, fun ht ht' => ?_, fun ht ht' => ?_, fun ht ht' => ?_⟩
      · rw [if_neg (Nat.not_le.mpr ht)]
        simp [fireWindowEnd, fireGraceEnd, hc]
      · rw [if_pos ht]; exact h.1 ht'
      · rw [if_pos (by omega)]; exact h.2.1 ht ht'
      · rw [if_pos (by omega)]; exact h.2.2 ht ht'
  | opened n =>
    simp only [fireWindowStart, hc]
    exact opened u n hc
  | grace n =>
    simp only [fireWindowStart, fireWindowEnd, hc, hg u n hc]
    exact ⟨fun h => if_neg (Nat.not_le.mpr h), fun h => if_pos h⟩
  | settling n => simp [fireWindowStart, fireWindowEnd, fireGraceEnd, hc]

/-! ### The entry into the cycle at a first setting -/

theorem planFor_bounds (night : NightParams) (rules : DstRules) (h : nightInRange night = true)
    (d : Nat) :
    86400 * d + 61200 ≤ (planFor night rules d).startsAt ∧
    (planFor night rules d).startsAt + 3600 ≤ (planFor night rules d).endsAt ∧
    (planFor night rules d).endsAt ≤ (planFor night rules d).closesAt ∧
    (planFor night rules d).closesAt ≤ 86400 * (d + 1) + 56700 := by
  simp only [nightInRange, decide_eq_true_eq] at h
  have ho : nightOffset rules d = 4 ∨ nightOffset rules d = 0 := by
    unfold nightOffset
    split <;> simp
  simp only [planFor, windowStartOf, NightPlan.startsAt, NightPlan.endsAt, NightPlan.closesAt,
    Config.intervalSeconds]
  split <;> omega

/-- The first of the nights near t that a test of t admits is the earliest that it admits. -/
theorem find_nightsNear (f : Nat → Nat) (t : Nat) (hlow : ∀ k, k + 2 ≤ t / 86400 → f k ≤ t)
    (hhigh : t < f (t / 86400 + 1)) :
    ∃ d, (nightsNear t).find? (fun k => decide (t < f k)) = some d ∧ t < f d ∧
      ∀ k, k < d → f k ≤ t := by
  simp only [nightsNear, dayNumber, Config.daySeconds, List.find?_cons, List.find?_nil]
  generalize t / 86400 = n at hlow hhigh
  have below (d : Nat) (hd : ∀ k, k < d → n < k + 2 → f k ≤ t) : ∀ k, k < d → f k ≤ t :=
    fun k hk => (Nat.lt_or_ge n (k + 2)).elim (hd k hk) (hlow k)
  by_cases h2 : t < f (n - 2)
  · exact ⟨n - 2, by simp [h2], h2, below _ fun k hk hn => absurd hn (by omega)⟩
  by_cases h1 : t < f (n - 1)
  · refine ⟨n - 1, by simp [h2, h1], h1, below _ fun k hk hn => ?_⟩
    exact absurd hn (by omega)
  by_cases h0 : t < f n
  · refine ⟨n, by simp [h2, h1, h0], h0, below _ fun k hk hn => ?_⟩
    obtain rfl : k = n - 1 := by omega
    exact Nat.not_lt.mp h1
  · refine ⟨n + 1, by simp [h2, h1, h0, hhigh], hhigh, below _ fun k hk hn => ?_⟩
    obtain rfl | rfl : k = n - 1 ∨ k = n := by omega
    · exact Nat.not_lt.mp h1
    · exact Nat.not_lt.mp h0

theorem firstUnended_spec (night : NightParams) (rules : DstRules) (t : Nat)
    (h : nightInRange night = true) :
    ∃ d, firstUnended night rules t = some d ∧ t < (planFor night rules d).endsAt ∧
      ∀ k, k < d → (planFor night rules k).endsAt ≤ t := by
  refine find_nightsNear (fun k => (planFor night rules k).endsAt) t (fun k hk => ?_) ?_
  · have := planFor_bounds night rules h k
    show (planFor night rules k).endsAt ≤ t
    omega
  · have := planFor_bounds night rules h (t / 86400 + 1)
    show t < (planFor night rules (t / 86400 + 1)).endsAt
    omega

/-- The last of the nights near t that a test of t admits is the latest that it admits. -/
theorem find_nightsNear_reverse (f : Nat → Nat) (t : Nat) (hlow : 2 ≤ t / 86400 → f (t / 86400 - 2) ≤ t)
    (hhigh : ∀ k, t / 86400 + 1 < k → t < f k) :
    ((nightsNear t).reverse.find? (fun k => decide (f k ≤ t)) = none ∧ ∀ k, t < f k) ∨
    ∃ k, (nightsNear t).reverse.find? (fun k => decide (f k ≤ t)) = some k ∧ f k ≤ t ∧
      ∀ j, k < j → t < f j := by
  simp only [nightsNear, dayNumber, Config.daySeconds, List.reverse_cons, List.reverse_nil,
    List.nil_append, List.cons_append, List.find?_cons, List.find?_nil]
  generalize t / 86400 = n at hlow hhigh
  have late (d : Nat) (hd : ∀ k, d < k → k ≤ n + 1 → t < f k) : ∀ k, d < k → t < f k :=
    fun k hk => (Nat.lt_or_ge (n + 1) k).elim (hhigh k) (hd k hk)
  by_cases h1 : f (n + 1) ≤ t
  · exact .inr ⟨n + 1, by simp [h1], h1, late _ fun k hk hk' => absurd hk' (by omega)⟩
  by_cases h0 : f n ≤ t
  · refine .inr ⟨n, by simp [h1, h0], h0, late _ fun k hk hk' => ?_⟩
    obtain rfl : k = n + 1 := by omega
    exact Nat.not_le.mp h1
  by_cases h2 : f (n - 1) ≤ t
  · refine .inr ⟨n - 1, by simp [h1, h0, h2], h2, late _ fun k hk hk' => ?_⟩
    obtain rfl | rfl : k = n ∨ k = n + 1 := by omega
    · exact Nat.not_le.mp h0
    · exact Nat.not_le.mp h1
  by_cases h3 : f (n - 2) ≤ t
  · refine .inr ⟨n - 2, by simp [h1, h0, h2, h3], h3, late _ fun k hk hk' => ?_⟩
    obtain rfl | rfl | rfl : k = n - 1 ∨ k = n ∨ k = n + 1 := by omega
    · exact Nat.not_le.mp h2
    · exact Nat.not_le.mp h0
    · exact Nat.not_le.mp h1
  · refine .inl ⟨by simp [h1, h0, h2, h3], fun k => ?_⟩
    rcases Nat.lt_or_ge (n + 1) k with hk | hk
    · exact hhigh k hk
    have hn : n < 2 := Nat.not_le.mp fun hn => h3 (hlow hn)
    obtain rfl | rfl | rfl | rfl : k = n - 2 ∨ k = n - 1 ∨ k = n ∨ k = n + 1 := by omega
    · exact Nat.not_le.mp h3
    · exact Nat.not_le.mp h2
    · exact Nat.not_le.mp h0
    · exact Nat.not_le.mp h1

theorem closedAt_spec (night : NightParams) (rules : DstRules) (t : Nat)
    (h : nightInRange night = true) :
    ClosedAt (planFor night rules) t (closedAt night rules t) := by
  have hb := planFor_bounds night rules h
  rcases find_nightsNear_reverse (fun k => (planFor night rules k).closesAt) t
    (fun hn => by have := hb (t / 86400 - 2); show (planFor night rules _).closesAt ≤ t; omega)
    (fun k hk => by have := hb k; show t < (planFor night rules k).closesAt; omega)
    with ⟨hf, hk⟩ | ⟨k, hf, hk⟩
  · exact .inl ⟨by rw [closedAt, hf]; rfl, hk⟩
  · exact .inr ⟨k, by rw [closedAt, hf]; rfl, hk⟩

/-- The spans of two nights do not meet: each ends before the later one starts. -/
theorem closesAt_lt_startsAt (night : NightParams) (rules : DstRules) (h : nightInRange night = true)
    {j k : Nat} (hjk : j < k) : (planFor night rules j).closesAt < (planFor night rules k).startsAt := by
  have := planFor_bounds night rules h j
  have := planFor_bounds night rules h k
  omega

/-- The night found is the earliest from d on that is none of the list. -/
theorem firstOutside_spec (l : List Nat) (d : Nat) :
    d ≤ firstOutside l d ∧ firstOutside l d ∉ l ∧ ∀ k, d ≤ k → k < firstOutside l d → k ∈ l := by
  cases hf : (List.range' d (l.length + 1)).find? (fun k => decide (k ∉ l)) with
  | none =>
    have sub : List.range' d (l.length + 1) ⊆ l := fun k hk => by
      simpa using List.find?_eq_none.mp hf k hk
    have := (List.subperm_of_subset List.nodup_range' sub).length_le
    simp at this
  | some g =>
    obtain ⟨hg, hmem, hmin⟩ := List.find?_range'_eq_some.mp hf
    simp only [firstOutside, hf, Option.getD_some]
    exact ⟨(List.mem_range'_1.mp hmem).1, by simpa using hg, fun k h1 h2 => by simpa using hmin k h1 h2⟩

/-- The entry at a first setting is the one R75 states, and the night it carries is the one planned or entered. -/
theorem enterFirst_firstEntry (u : State) (h : nightInRange u.config.active.night = true) :
    FirstEntry u (enterFirst u) (eventNight (enterFirst u)) := by
  obtain ⟨f, hf, h1, h2⟩ :=
    firstUnended_spec u.config.active.night u.calendar.rules u.calendar.t h
  obtain ⟨hfd, hout, hmin⟩ := firstOutside_spec u.calendar.leftOut f
  simp only [enterFirst, hf, Option.map_some, Option.bind_some, State.plan, planNight, Config.lastGraceEnd]
  generalize firstOutside u.calendar.leftOut f = d at hfd hout hmin
  have hend : u.calendar.t < (planFor u.config.active.night u.calendar.rules d).endsAt := by
    rcases Nat.lt_or_ge f d with hlt | hge
    · have := closesAt_lt_startsAt u.config.active.night u.calendar.rules h hlt
      have := planFor_bounds u.config.active.night u.calendar.rules h f
      have := planFor_bounds u.config.active.night u.calendar.rules h d
      omega
    · rwa [show d = f by omega]
  have before (k : Nat) (hk : k < d) : k ∈ u.calendar.leftOut ∨
      (planFor u.config.active.night u.calendar.rules k).endsAt ≤ u.calendar.t :=
    (Nat.lt_or_ge k f).elim (fun hkf => .inr (h2 k hkf)) fun hfk => .inl (hmin k hfk hk)
  refine ⟨d, closedAt u.config.active.night u.calendar.rules u.calendar.t, hout, hend, before,
    closedAt_spec u.config.active.night u.calendar.rules u.calendar.t h, ?_⟩
  by_cases hc : (planFor u.config.active.night u.calendar.rules d).closesAt ≤ 3155756400
  · simp only [hc, if_true]
    refine .inr ?_
    by_cases hs : u.calendar.t < (planFor u.config.active.night u.calendar.rules d).startsAt
    · exact .inl ⟨trivial, hs, by simp [hs, State.setCalendar],
        by rw [if_pos hs]; rfl⟩
    · refine .inr ⟨trivial, Nat.not_lt.mp hs, ?_, ?_⟩
      · simp [hs, enterNight_eq, State.setCalendar]
      · rw [if_neg hs]; rfl
  · simp only [hc, if_false]
    exact .inl ⟨Nat.not_le.mp hc, rfl, rfl⟩

/-! ### The entry into the cycle at a start-up -/

theorem mem_nightsNear (night : NightParams) (rules : DstRules) (t : Nat) (h : nightInRange night = true)
    {d : Nat} (hs : (planFor night rules d).startsAt ≤ t) (hc : t < (planFor night rules d).closesAt) :
    d ∈ nightsNear t := by
  have := planFor_bounds night rules h d
  simp only [nightsNear, dayNumber, Config.daySeconds, List.mem_cons, List.not_mem_nil, or_false]
  omega

theorem nightSpanning_spans (night : NightParams) (rules : DstRules) (t : Nat) {d : Nat}
    (h : nightSpanning night rules t = some d) :
    (planFor night rules d).startsAt ≤ t ∧ t < (planFor night rules d).closesAt := by
  unfold nightSpanning at h
  simpa using List.find?_some h

/-- The night whose span contains t is the one found. -/
theorem nightSpanning_of_span (night : NightParams) (rules : DstRules) (t : Nat)
    (h : nightInRange night = true) {d : Nat} (hs : (planFor night rules d).startsAt ≤ t)
    (hc : t < (planFor night rules d).closesAt) : nightSpanning night rules t = some d := by
  cases hf : nightSpanning night rules t with
  | none =>
    have := List.find?_eq_none.mp hf d (mem_nightsNear night rules t h hs hc)
    simp [hs, hc] at this
  | some k =>
    obtain ⟨hk1, hk2⟩ := nightSpanning_spans night rules t hf
    rcases Nat.lt_trichotomy k d with hlt | rfl | hlt
    · have := closesAt_lt_startsAt night rules h hlt
      omega
    · rfl
    · have := closesAt_lt_startsAt night rules h hlt
      omega

theorem Calendar.mayEnter_iff (c : Calendar) (d : Nat) :
    c.mayEnter d = true ↔ d ∉ c.leftOut ∧ ∀ n, c.brokenOff = .settling n → n < d := by
  unfold Calendar.mayEnter
  cases c.brokenOff <;> simp [hasIdx]

theorem Calendar.mem_notPlanned (c : Calendar) (d : Nat) :
    d ∈ c.notPlanned ↔ d ∈ c.leftOut ∨ c.brokenOff = .collecting d := by
  unfold Calendar.notPlanned
  cases c.brokenOff <;> simp [or_comm, eq_comm]

/-- The nights that a start-up may plan, in the statements' words. -/
def Calendar.MayPlan (c : Calendar) (d : Nat) : Prop :=
  (d ∉ c.leftOut ∧ ∀ n, c.brokenOff = .settling n → n < d) ∧ c.brokenOff ≠ .collecting d

/-- The night found is the earliest from d on that a start-up may plan. -/
theorem Calendar.firstToPlan_spec (c : Calendar) (d : Nat) :
    d ≤ c.firstToPlan d ∧ c.MayPlan (c.firstToPlan d) ∧
      ∀ k, d ≤ k → k < c.firstToPlan d → ¬ c.MayPlan k := by
  obtain ⟨h1, h2, h3⟩ := firstOutside_spec c.notPlanned (c.planFrom d)
  change c.planFrom d ≤ c.firstToPlan d at h1
  change c.firstToPlan d ∉ _ at h2
  change ∀ k, _ → k < c.firstToPlan d → _ at h3
  simp only [c.mem_notPlanned, not_or] at h2 h3
  have from_iff (k : Nat) : c.planFrom d ≤ k ↔ d ≤ k ∧ ∀ n, c.brokenOff = .settling n → n < k := by
    unfold Calendar.planFrom
    cases c.brokenOff <;> simp
  have hle := (from_iff _).mp h1
  refine ⟨hle.1, ⟨⟨h2.1, hle.2⟩, h2.2⟩, fun k hk hlt hp => ?_⟩
  rcases h3 k ((from_iff k).mpr ⟨hk, hp.1.2⟩) hlt with h | h
  · exact hp.1.1 h
  · exact hp.2 h

theorem firstUnopened_spec (night : NightParams) (rules : DstRules) (t : Nat)
    (h : nightInRange night = true) :
    ∃ d, firstUnopened night rules t = some d ∧ t < (planFor night rules d).startsAt ∧
      ∀ k, k < d → (planFor night rules k).startsAt ≤ t := by
  refine find_nightsNear (fun k => (planFor night rules k).startsAt) t (fun k hk => ?_) ?_
  · have := planFor_bounds night rules h k
    show (planFor night rules k).startsAt ≤ t
    omega
  · have := planFor_bounds night rules h (t / 86400 + 1)
    show t < (planFor night rules (t / 86400 + 1)).startsAt
    omega

/-- The earliest night that a start-up may plan whose window start lies after t is the one planned. -/
theorem firstToPlan_eq (c : Calendar) (night : NightParams) (rules : DstRules) (t : Nat)
    (h : nightInRange night = true) {d : Nat} (hs : t < (planFor night rules d).startsAt)
    (hp : c.MayPlan d)
    (hl : ∀ k, k < d → c.MayPlan k → (planFor night rules k).startsAt ≤ t) :
    (firstUnopened night rules t).map c.firstToPlan = some d := by
  obtain ⟨f, hf, h1, h2⟩ := firstUnopened_spec night rules t h
  obtain ⟨hfg, hpg, hmin⟩ := c.firstToPlan_spec f
  have hfd : f ≤ d := by
    rcases Nat.lt_or_ge d f with hlt | hge
    · have := h2 d hlt
      omega
    · exact hge
  rw [hf, Option.map_some]
  generalize c.firstToPlan f = g at hfg hpg hmin
  rcases Nat.lt_trichotomy d g with hlt | rfl | hlt
  · exact absurd hp (hmin d hfd hlt)
  · rfl
  · have := hl g hlt hpg
    have : (planFor night rules f).startsAt ≤ (planFor night rules g).startsAt := by
      rcases Nat.lt_or_ge f g with hlt | hge
      · have := closesAt_lt_startsAt night rules h hlt
        have := planFor_bounds night rules h f
        omega
      · rw [show f = g by omega]
    omega

/-- The night a start-up enters again contains t in its span and may be entered, and no other does. -/
theorem reentry_cases (c : Calendar) (night : NightParams) (rules : DstRules) (t : Nat) :
    (∃ k, (nightSpanning night rules t).filter c.mayEnter = some k ∧
      (planFor night rules k).startsAt ≤ t ∧ t < (planFor night rules k).closesAt ∧
      (nightInRange night = true → ∀ d, (planFor night rules d).startsAt ≤ t →
        t < (planFor night rules d).closesAt → d = k) ∧ c.mayEnter k = true) ∨
    ((nightSpanning night rules t).filter c.mayEnter = none ∧
      (nightInRange night = true → ∀ d, (planFor night rules d).startsAt ≤ t →
        t < (planFor night rules d).closesAt → c.mayEnter d = false)) := by
  cases hsp : nightSpanning night rules t with
  | none =>
    refine .inr ⟨rfl, fun hn d hs hc => ?_⟩
    simp [nightSpanning_of_span night rules t hn hs hc] at hsp
  | some k =>
    obtain ⟨h1, h2⟩ := nightSpanning_spans night rules t hsp
    have only (hn : nightInRange night = true) (d : Nat) (hs : (planFor night rules d).startsAt ≤ t)
        (hc : t < (planFor night rules d).closesAt) : d = k := by
      have := nightSpanning_of_span night rules t hn hs hc
      simpa [hsp] using this.symm
    cases hm : c.mayEnter k with
    | true => exact .inl ⟨k, by simp [hm], h1, h2, only, hm⟩
    | false =>
      refine .inr ⟨by simp [hm], fun hn d hs hc => ?_⟩
      rw [only hn d hs hc]
      exact hm

/-- The entry at a start-up is the one R76 states, from main-domain items at their start-up values. -/
theorem enterStartUp_startEntry (u : State) (hs : u.calendar.cycle = .halted)
    (hc : u.calendar.closed = none) (hh : u.calendar.horizon = none)
    (hd : u.calendar.disturbed = false) (hk : u.calendar.clockStepped = false)
    (hi : u.intake = ⟨u.intake.runtime, [], [], [], []⟩) (hb : u.burst = ⟨[], [], []⟩) :
    StartEntry u (enterStartUp u) := by
  obtain ⟨pending, ⟨rt, st, hr, su, rr⟩, config, c, settlement, districts, ⟨bm, br, bh⟩, suspensions,
    history, events, ports, retention⟩ := u
  have hm := c.mayEnter_iff
  have hp := firstToPlan_eq c config.active.night c.rules c.t
  have hcases := reentry_cases c config.active.night c.rules c.t
  obtain ⟨t, valid, rules, cycle, ck, di, cl, ho, ed, lo, bo⟩ := c
  simp only [Intake.mk.injEq, BurstWatch.mk.injEq, true_and] at hs hc hh hd hk hi hb
  obtain ⟨rfl, rfl, rfl, rfl⟩ := hi
  obtain ⟨rfl, rfl, rfl⟩ := hb
  subst hs hc hh hd hk
  dsimp only [Calendar.MayPlan] at hm hp hcases
  dsimp only [StartEntry]
  cases valid with
  | false => exact ⟨.halted, none, false, [], rfl, fun _ => ⟨rfl, rfl, rfl, rfl⟩, nofun⟩
  | true =>
    rcases hcases with ⟨k, hf, h1, h2, only, hmk⟩ | ⟨hf, no⟩
    · have no_other (hi : ∀ j, (j ∉ lo ∧ ∀ n, bo = .settling n → n < j) →
          t < (planFor config.active.night rules j).startsAt ∨
            (planFor config.active.night rules j).closesAt ≤ t) : False := by
        rcases hi k ((hm k).mp hmk) with h | h <;> omega
      by_cases h64 : (planFor config.active.night rules k).closesAt ≤ 3155756400
      · refine ⟨reenteredPhase t (planFor config.active.night rules k),
          closedAt config.active.night rules t, true, tkeys suspensions, ?_, nofun, fun _ hn =>
            ⟨closedAt_spec _ _ _ hn, fun d => ⟨fun _ hx hs hc => ?_, fun _ _ hs he => ?_,
              fun _ _ he hc => ?_, fun hi => (no_other hi).elim⟩⟩⟩
        · simp [enterStartUp, hf, State.plan, planNight, Config.lastGraceEnd, h64, reenterNight,
            enterNight, setUpNight, clearBurst, beforeHorizon, State.setCalendar, State.setIntake,
            State.setBurst]
        · rw [only hn d hs hc] at hx
          exact absurd h64 (Nat.not_le.mpr hx)
        · have := planFor_bounds _ rules hn d
          obtain rfl := only hn d hs (by omega)
          exact ⟨if_pos he, rfl, rfl⟩
        · have := planFor_bounds _ rules hn d
          obtain rfl := only hn d (by omega) hc
          exact ⟨if_neg (Nat.not_lt.mpr he), rfl, rfl⟩
      · refine ⟨.day none, closedAt config.active.night rules t, false, [], ?_, nofun, fun _ hn =>
          ⟨closedAt_spec _ _ _ hn, fun d => ⟨fun _ _ _ _ => ⟨rfl, rfl, rfl⟩, fun _ hx hs he => ?_,
            fun _ hx he hc => ?_, fun hi => (no_other hi).elim⟩⟩⟩
        · simp [enterStartUp, hf, State.plan, planNight, Config.lastGraceEnd, h64, State.setCalendar]
        · have := planFor_bounds _ rules hn d
          obtain rfl := only hn d hs (by omega)
          exact absurd hx h64
        · have := planFor_bounds _ rules hn d
          obtain rfl := only hn d (by omega) hc
          exact absurd hx h64
    · have none_spans (hn : nightInRange config.active.night = true) (d : Nat)
          (hmd : d ∉ lo ∧ ∀ n, bo = .settling n → n < d)
          (hs : (planFor config.active.night rules d).startsAt ≤ t)
          (hc : t < (planFor config.active.night rules d).closesAt) : False := by
        have := no hn d hs hc
        rw [(hm d).mpr hmd] at this
        cases this
      refine ⟨.day (((firstUnopened config.active.night rules t).map
          (Calendar.firstToPlan ⟨t, true, rules, .halted, false, false, none, none, ed, lo, bo⟩)).bind
            (planNight config.active.night rules)),
        closedAt config.active.night rules t, false, [], ?_, nofun, fun _ hn =>
          ⟨closedAt_spec _ _ _ hn, fun d => ⟨fun hmd _ hs hc => (none_spans hn d hmd hs hc).elim,
            fun hmd _ hs he => ?_, fun hmd _ he hc => ?_, fun _ hs hl hc => ?_⟩⟩⟩
      · simp only [enterStartUp, hf, State.setCalendar, if_true]
        rfl
      · have := planFor_bounds _ rules hn d
        exact (none_spans hn d hmd hs (by omega)).elim
      · have := planFor_bounds _ rules hn d
        exact (none_spans hn d hmd (by omega) hc).elim
      · refine ⟨?_, rfl, rfl⟩
        rw [hp hn hs hl hc, Option.bind_some]

end Sys2Proof.Machine
end

