-- ==== Sys2Proof/Laws/Serve.lean ====
section
/-!
SUPPORT. What the taking of a request frame can do, once for every request row.
-/

namespace Sys2Proof.Machine

variable {s : State} {p : Port} {f : Frame} {rest : List Frame}

@[simp] theorem State.takeFrame_pending : (s.takeFrame p).pending = s.pending := rfl
@[simp] theorem State.takeFrame_intake : (s.takeFrame p).intake = s.intake := rfl
@[simp] theorem State.takeFrame_config : (s.takeFrame p).config = s.config := rfl
@[simp] theorem State.takeFrame_calendar : (s.takeFrame p).calendar = s.calendar := rfl
@[simp] theorem State.takeFrame_settlement : (s.takeFrame p).settlement = s.settlement := rfl
@[simp] theorem State.takeFrame_districts : (s.takeFrame p).districts = s.districts := rfl
@[simp] theorem State.takeFrame_burst : (s.takeFrame p).burst = s.burst := rfl
@[simp] theorem State.takeFrame_suspensions : (s.takeFrame p).suspensions = s.suspensions := rfl
@[simp] theorem State.takeFrame_history : (s.takeFrame p).history = s.history := rfl
@[simp] theorem State.takeFrame_events : (s.takeFrame p).events = s.events := rfl
@[simp] theorem State.takeFrame_retention : (s.takeFrame p).retention = s.retention := rfl

/-- A change of settings that is due touches the line, the stage of the change and the receiver alone. -/
theorem PortState.adoptDue_frame (x : PortState) :
    x.adoptDue = { x with
      line := x.adoptDue.line, change := x.adoptDue.change, receiver := x.adoptDue.receiver } := by
  unfold PortState.adoptDue
  split <;> rfl

@[simp] theorem PortState.adoptDue_settings (x : PortState) : x.adoptDue.settings = x.settings := by
  rw [x.adoptDue_frame]
@[simp] theorem PortState.adoptDue_queue (x : PortState) : x.adoptDue.queue = x.queue := by
  rw [x.adoptDue_frame]
@[simp] theorem PortState.adoptDue_transmitter (x : PortState) : x.adoptDue.transmitter = x.transmitter := by
  rw [x.adoptDue_frame]

/-- A change made is not due again. -/
@[simp] theorem PortState.adoptDue_adoptDue (x : PortState) : x.adoptDue.adoptDue = x.adoptDue := by
  unfold PortState.adoptDue
  split <;> simp_all [PortState.applySettings]

/-- Nothing is due of a port that is transmitting. -/
theorem PortState.adoptDue_of_transmitting (x : PortState) (h : x.transmitter ≠ none) : x.adoptDue = x :=
  if_neg fun hx => h hx.2

@[simp] theorem State.adoptDue_port (s : State) (p : Port) : (s.adoptDue p).port p = (s.port p).adoptDue := by
  simp [State.adoptDue]

/-- A frame is taken alike before and after a change that is due has been made. -/
@[simp] theorem State.takeFrame_adoptDue (s : State) (p : Port) : (s.adoptDue p).takeFrame p = s.takeFrame p := by
  simp [State.takeFrame, State.adoptDue]

theorem State.takeFrame_port_self :
    (s.takeFrame p).port p = { (s.port p).adoptDue with queue := (s.port p).queue.tail } := by
  simp [State.takeFrame]

theorem State.takeFrame_port_ne {q : Port} (h : q ≠ p) : (s.takeFrame p).port q = s.port q := by
  simp [State.takeFrame, State.port_setPort_ne _ _ _ _ h]

@[simp] theorem State.takeFrame_settings (q : Port) :
    ((s.takeFrame p).port q).settings = (s.port q).settings := by
  by_cases h : q = p
  · subst h; simp [State.takeFrame_port_self]
  · rw [State.takeFrame_port_ne h]

theorem waitingFrame_of_ready (h : ReadyToTake s p f rest) : waitingFrame s p = some f := by
  obtain ⟨h1, h2, h3, -⟩ := h
  simp [waitingFrame, h1, h2, h3]

/-- A frame that its row takes, of a known kind in the port's role, is served by its owner, and the response
begins with the owner's answer. -/
theorem serve_ready (mine : Frame → Bool) (owner : Owner) (h : ReadyToTake s p f rest)
    (hm : mine f = true) (hk : knownKind f.kind = true) (hr : inRole f.kind p = true) :
    serve mine owner p s =
      replied s p f (owner p f.payload (s.takeFrame p)).1 (owner p f.payload (s.takeFrame p)).2.status
        (owner p f.payload (s.takeFrame p)).2.payload := by
  have ha : f.addr ≠ Config.broadcast := h.2.2.2
  simp only [serve, waitingFrame_of_ready h, hm, if_true, serveFrame, ha, if_false, checked, hk, hr,
    Bool.not_true, Bool.false_eq_true, responseTo, replied, State.takeFrame_settings]

/-- A frame that is not addressed to all and fails one of the Request Service's two checks is refused with the
state as it was. -/
theorem serve_refused (mine : Frame → Bool) (owner : Owner) (h : ReadyToTake s p f rest)
    (hm : mine f = true) (hc : knownKind f.kind = false ∨ inRole f.kind p = false) :
    serve mine owner p s =
      replied s p f (s.takeFrame p) (if knownKind f.kind then .role else .format) [] := by
  have ha : f.addr ≠ Config.broadcast := h.2.2.2
  simp only [serve, waitingFrame_of_ready h, hm, if_true, serveFrame, ha, if_false, checked,
    responseTo, replied, State.takeFrame_settings, refusal]
  rcases hc with hc | hc
  · simp [hc]
  · cases hk : knownKind f.kind <;> simp [hc]

/-- Taking nothing: no frame that this row may take stands first on a port that may take one. -/
theorem serve_not_due (mine : Frame → Bool) (owner : Owner)
    (h : ∀ f, waitingFrame s p = some f → mine f = false) : serve mine owner p s = s := by
  unfold serve
  split
  · rfl
  · rename_i f hf
    simp [h f hf]

/-- What the taking of a request can do: nothing; the taking of a broadcast, with or without its owner's
effect; or a refusal or the owner's effect with a response begun. -/
theorem serve_cases (mine : Frame → Bool) (owner : Owner) :
    serve mine owner p s = s ∨
      ∃ f, waitingFrame s p = some f ∧ mine f = true ∧
        (serve mine owner p s = s.takeFrame p ∨
          serve mine owner p s = (owner p f.payload (s.takeFrame p)).1 ∨
          (∃ x, serve mine owner p s = replied s p f (s.takeFrame p) x []) ∨
          serve mine owner p s =
            replied s p f (owner p f.payload (s.takeFrame p)).1
              (owner p f.payload (s.takeFrame p)).2.status
              (owner p f.payload (s.takeFrame p)).2.payload) := by
  unfold serve
  split
  · exact .inl rfl
  · rename_i f hf
    split
    · rename_i hm
      refine .inr ⟨f, hf, hm, ?_⟩
      unfold serveFrame
      split
      · split
        · exact .inr (.inl rfl)
        · exact .inl rfl
      · simp only [checked]
        split
        · exact .inr (.inr (.inl ⟨.format, by simp [replied, responseTo, refusal]⟩))
        · split
          · exact .inr (.inr (.inl ⟨.role, by simp [replied, responseTo, refusal]⟩))
          · exact .inr (.inr (.inr (by simp [replied, responseTo])))
    · exact .inl rfl

end Sys2Proof.Machine
end

