-- ==== Sys2Proof/Laws/Tables.lean ====
section
/-!
SUPPORT. The laws of keyed tables and index sets: a read after a write, and that every operation keeps the
canonical form.
-/

namespace Sys2Proof.Machine

variable {α β : Type}

/-! ### Reads after writes -/

@[simp] theorem tget_nil (k : Nat) : tget ([] : Tbl α) k = none := rfl

@[simp] theorem tget_tput_self (t : Tbl α) (k : Nat) (v : α) : tget (tput t k v) k = some v := by
  induction t with
  | nil => simp [tput, tget]
  | cons x t ih =>
    obtain ⟨k', v'⟩ := x
    unfold tput
    split
    · simp [tget]
    · split
      · simp [tget]
      · rename_i h
        simp [tget, h, ih]

theorem tget_tput_ne (t : Tbl α) (k k' : Nat) (v : α) (h : k' ≠ k) :
    tget (tput t k v) k' = tget t k' := by
  induction t with
  | nil => simp [tput, tget, h.symm]
  | cons x t ih =>
    obtain ⟨l, w⟩ := x
    unfold tput
    split
    · simp [tget, h.symm]
    · split
      · rename_i _ e
        subst e
        simp [tget, h.symm]
      · simp only [tget, ih]

theorem tget_tput (t : Tbl α) (k k' : Nat) (v : α) :
    tget (tput t k v) k' = if k' = k then some v else tget t k' := by
  split
  · simp_all
  · simp_all [tget_tput_ne]

theorem tget_filter_key (p : Nat → Bool) (t : Tbl α) (k : Nat) :
    tget (t.filter (fun x => p x.1)) k = if p k then tget t k else none := by
  induction t with
  | nil => simp
  | cons x t ih =>
    obtain ⟨l, w⟩ := x
    by_cases hl : l = k
    · subst hl
      cases hp : p l <;> simp_all [tget]
    · cases hp : p l <;> simp_all [tget]

@[simp] theorem tget_tdel_self (t : Tbl α) (k : Nat) : tget (tdel t k) k = none := by
  have := tget_filter_key (fun x => decide (x ≠ k)) t k
  simp only [ne_eq, not_true_eq_false, decide_false, Bool.false_eq_true, if_false] at this
  exact this

theorem tget_tdel_ne (t : Tbl α) (k k' : Nat) (h : k' ≠ k) : tget (tdel t k) k' = tget t k' := by
  have := tget_filter_key (fun x => decide (x ≠ k)) t k'
  simp only [ne_eq, h, not_false_eq_true, decide_true, if_true] at this
  exact this

theorem tget_map (f : Nat → α → β) (t : Tbl α) (k : Nat) :
    tget (t.map (fun x => (x.1, f x.1 x.2))) k = (tget t k).map (f k) := by
  induction t with
  | nil => rfl
  | cons x t ih =>
    obtain ⟨l, w⟩ := x
    by_cases h : l = k
    · subst h; simp [tget]
    · simp [tget, h, ih]

theorem mem_of_tget {t : Tbl α} {k : Nat} {v : α} (h : tget t k = some v) : (k, v) ∈ t := by
  induction t with
  | nil => simp at h
  | cons x t ih =>
    obtain ⟨l, w⟩ := x
    by_cases hl : l = k
    · subst hl; simp_all [tget]
    · simp_all [tget]

theorem tget_isSome_of_mem {t : Tbl α} {x : Nat × α} (h : x ∈ t) : (tget t x.1).isSome := by
  induction t with
  | nil => simp at h
  | cons y t ih =>
    by_cases hl : y.1 = x.1
    · simp [tget, hl]
    · rcases List.mem_cons.1 h with rfl | h
      · exact absurd rfl hl
      · simpa [tget, hl] using ih h

/-! ### The canonical form of a table -/

theorem tableWf_iff (t : Tbl α) : tableWf t = true ↔ t.Pairwise (fun x y => x.1 < y.1) := by
  simp [tableWf]

theorem tget_of_mem {t : Tbl α} (hw : tableWf t = true) {k : Nat} {v : α} (h : (k, v) ∈ t) :
    tget t k = some v := by
  rw [tableWf_iff] at hw
  induction t with
  | nil => simp at h
  | cons x t ih =>
    obtain ⟨l, w⟩ := x
    rw [List.pairwise_cons] at hw
    rcases List.mem_cons.1 h with h | h
    · cases h; simp [tget]
    · have := hw.1 _ h
      simp only [tget, if_neg (show l ≠ k from ne_of_lt this)]
      exact ih hw.2 h

theorem tkeys_sorted {t : Tbl α} (h : tableWf t = true) : idxWf (tkeys t) = true := by
  rw [tableWf_iff] at h
  simpa [idxWf, tkeys, List.pairwise_map] using h

theorem mem_tput {t : Tbl α} {k : Nat} {v : α} {x : Nat × α} (h : x ∈ tput t k v) :
    x = (k, v) ∨ x ∈ t := by
  induction t with
  | nil => simpa [tput] using h
  | cons y t ih =>
    unfold tput at h
    split at h
    · simpa using h
    · split at h
      · rcases List.mem_cons.1 h with h | h
        · exact .inl h
        · exact .inr (List.mem_cons_of_mem _ h)
      · rcases List.mem_cons.1 h with h | h
        · exact .inr (h ▸ List.mem_cons_self)
        · exact (ih h).imp id (List.mem_cons_of_mem _)

theorem tableWf_nil : tableWf ([] : Tbl α) = true := rfl

theorem tableWf_tput {t : Tbl α} (h : tableWf t = true) (k : Nat) (v : α) :
    tableWf (tput t k v) = true := by
  rw [tableWf_iff] at *
  induction t with
  | nil => simp [tput]
  | cons y t ih =>
    obtain ⟨l, w⟩ := y
    have h' := List.pairwise_cons.1 h
    unfold tput
    split
    · rename_i hk
      refine List.pairwise_cons.2 ⟨fun x hx => ?_, h⟩
      rcases List.mem_cons.1 hx with rfl | hx
      · exact hk
      · exact hk.trans (h'.1 x hx)
    · split
      · rename_i _ e
        subst e
        exact List.pairwise_cons.2 h'
      · rename_i h1 h2
        refine List.pairwise_cons.2 ⟨fun x hx => ?_, ih h'.2⟩
        rcases mem_tput hx with rfl | hx
        · exact lt_of_le_of_ne (not_lt.1 h1) h2
        · exact h'.1 x hx

theorem tableWf_filter {t : Tbl α} (h : tableWf t = true) (p : Nat × α → Bool) :
    tableWf (t.filter p) = true := by
  rw [tableWf_iff] at *
  exact h.filter p

theorem tableWf_tdel {t : Tbl α} (h : tableWf t = true) (k : Nat) : tableWf (tdel t k) = true :=
  tableWf_filter h _

theorem tableWf_map {t : Tbl α} (h : tableWf t = true) (f : Nat × α → β) :
    tableWf (t.map (fun x => (x.1, f x))) = true := by
  rw [tableWf_iff] at *
  simpa [List.pairwise_map] using h

theorem length_tput_of_isSome {t : Tbl α} (h : tableWf t = true) {k : Nat} (v : α)
    (hk : (tget t k).isSome) : (tput t k v).length = t.length := by
  rw [tableWf_iff] at h
  induction t with
  | nil => simp at hk
  | cons y t ih =>
    obtain ⟨l, w⟩ := y
    rw [List.pairwise_cons] at h
    unfold tput
    split
    · rename_i hlt
      have hne : l ≠ k := Nat.ne_of_gt hlt
      simp only [tget, if_neg hne] at hk
      obtain ⟨u, hu⟩ := Option.isSome_iff_exists.1 hk
      exact absurd (h.1 _ (mem_of_tget hu)) (by simpa using hlt.le)
    · split
      · simp
      · rename_i hne
        simp only [tget, if_neg hne] at hk
        simp [ih h.2 hk]

theorem length_tput_le (t : Tbl α) (k : Nat) (v : α) : (tput t k v).length ≤ t.length + 1 := by
  induction t with
  | nil => simp [tput]
  | cons y t ih =>
    obtain ⟨l, w⟩ := y
    unfold tput
    split
    · simp
    · split <;> simp_all

theorem tput_of_tget {t : Tbl α} (h : tableWf t = true) {k : Nat} {v : α} (hk : tget t k = some v) :
    tput t k v = t := by
  rw [tableWf_iff] at h
  induction t with
  | nil => simp at hk
  | cons y t ih =>
    obtain ⟨l, w⟩ := y
    rw [List.pairwise_cons] at h
    unfold tput
    split
    · rename_i hlt
      simp only [tget, if_neg (Nat.ne_of_gt hlt)] at hk
      exact absurd (h.1 _ (mem_of_tget hk)) (by simpa using hlt.le)
    · split
      · rename_i _ e
        simp only [tget, if_pos e, Option.some.injEq] at hk
        rw [hk, e]
      · rename_i hne
        simp only [tget, if_neg hne] at hk
        rw [ih h.2 hk]

/-- Two tables in canonical form that read alike at every key are the same data. -/
theorem table_ext {t u : Tbl α} (ht : tableWf t = true) (hu : tableWf u = true)
    (h : ∀ k, tget t k = tget u k) : t = u := by
  induction t generalizing u with
  | nil =>
    cases u with
    | nil => rfl
    | cons y u => have := h y.1; simp [tget] at this
  | cons x t ih =>
    obtain ⟨k, v⟩ := x
    cases u with
    | nil => have := h k; simp [tget] at this
    | cons y u =>
      obtain ⟨l, w⟩ := y
      have ht' := List.pairwise_cons.1 ((tableWf_iff _).1 ht)
      have hu' := List.pairwise_cons.1 ((tableWf_iff _).1 hu)
      have below {t : Tbl α} {k : Nat} (h : ∀ x ∈ t, k < x.1) {j : Nat} (hj : j ≤ k) :
          tget t j = none := by
        cases hg : tget t j with
        | none => rfl
        | some z => exact absurd (h _ (mem_of_tget hg)) (by simpa using hj)
      have hkl : k = l := by
        rcases Nat.lt_trichotomy k l with hlt | heq | hlt
        · have := h k
          simp [tget, Nat.ne_of_gt hlt, below hu'.1 hlt.le] at this
        · exact heq
        · have := h l
          simp [tget, Nat.ne_of_gt hlt, below ht'.1 hlt.le] at this
      subst hkl
      have hv := h k
      simp only [tget, if_true, Option.some.injEq] at hv
      subst hv
      congr 1
      refine ih ((tableWf_iff _).2 ht'.2) ((tableWf_iff _).2 hu'.2) fun j => ?_
      by_cases hj : k = j
      · subst hj
        rw [below ht'.1 le_rfl, below hu'.1 le_rfl]
      · have := h j
        simpa [tget, hj] using this

theorem tput_comm {t : Tbl α} (h : tableWf t = true) {k l : Nat} (hne : k ≠ l) (v w : α) :
    tput (tput t k v) l w = tput (tput t l w) k v := by
  refine table_ext (tableWf_tput (tableWf_tput h k v) l w) (tableWf_tput (tableWf_tput h l w) k v)
    fun j => ?_
  by_cases hk : j = k <;> by_cases hl : j = l <;> simp_all [tget_tput]

theorem tput_tput (t : Tbl α) (h : tableWf t = true) (k : Nat) (v w : α) :
    tput (tput t k v) k w = tput t k w := by
  refine table_ext (tableWf_tput (tableWf_tput h k v) k w) (tableWf_tput h k w) fun j => ?_
  by_cases hk : j = k <;> simp_all [tget_tput]

/-! ### Index sets -/

@[simp] theorem mem_insertIdx (l : IdxSet) (k j : Nat) : j ∈ insertIdx l k ↔ j = k ∨ j ∈ l := by
  induction l with
  | nil => simp [insertIdx]
  | cons x l ih =>
    unfold insertIdx
    split
    · simp
    · split
      · rename_i _ e
        subst e
        simp
      · simp [ih]; tauto

theorem hasIdx_iff (l : IdxSet) (k : Nat) : hasIdx l k = true ↔ k ∈ l := by simp [hasIdx]

theorem idxWf_insertIdx {l : IdxSet} (h : idxWf l = true) (k : Nat) :
    idxWf (insertIdx l k) = true := by
  simp only [idxWf, decide_eq_true_eq] at *
  induction l with
  | nil => simp [insertIdx]
  | cons x l ih =>
    have h' := List.pairwise_cons.1 h
    unfold insertIdx
    split
    · rename_i hk
      refine List.pairwise_cons.2 ⟨fun y hy => ?_, h⟩
      rcases List.mem_cons.1 hy with rfl | hy
      · exact hk
      · exact hk.trans (h'.1 y hy)
    · split
      · exact h
      · rename_i h1 h2
        refine List.pairwise_cons.2 ⟨fun y hy => ?_, ih h'.2⟩
        rcases (mem_insertIdx l k y).1 hy with rfl | hy
        · exact lt_of_le_of_ne (not_lt.1 h1) h2
        · exact h'.1 y hy

/-! ### The Interval Store -/

theorem slotKey_inj {m k m' k' : Nat} (hk : k < 24) (hk' : k' < 24)
    (h : slotKey m k = slotKey m' k') : m = m' ∧ k = k' := by
  simp only [slotKey, Config.rowSlots] at h
  omega

@[simp] theorem slotAt_putSlot_self (store : Tbl Slot) (m k : Nat) (v : Slot) :
    slotAt (putSlot store m k v) m k = v := by
  simp [slotAt, putSlot]

theorem slotAt_putSlot_ne (store : Tbl Slot) {m k m' k' : Nat} (v : Slot) (hk : k < 24)
    (hk' : k' < 24) (h : ¬ (m' = m ∧ k' = k)) :
    slotAt (putSlot store m k v) m' k' = slotAt store m' k' := by
  have : slotKey m' k' ≠ slotKey m k := fun e => h (slotKey_inj hk' hk e)
  simp [slotAt, putSlot, tget_tput_ne _ _ _ _ this]

theorem storeWf_iff (store : Tbl Slot) :
    storeWf store = true ↔ tableWf store = true ∧ ∀ x ∈ store, x.2 ≠ .empty := by
  simp [storeWf]

theorem storeWf_putSlot {store : Tbl Slot} (h : storeWf store = true) (m k : Nat) {v : Slot}
    (hv : v ≠ .empty) : storeWf (putSlot store m k v) = true := by
  rw [storeWf_iff] at *
  refine ⟨tableWf_tput h.1 _ _, fun x hx => ?_⟩
  rcases mem_tput hx with rfl | hx
  · exact hv
  · exact h.2 x hx

end Sys2Proof.Machine
end

