-- ==== Sys2Proof/WellFormed.lean ====
section
/-!
DEFINITION. Which commands are well formed. Every operand but one has a type that admits only legal
values; the district of BURST_ENTRY is a place of the district table, 0..63 (R28, R124).
-/

namespace Sys2Proof

/-- A command's operands lie in the ranges the manual gives them. -/
def Instr.wellFormed : Instr → Bool
  | .burstEntry d => decide (d ≤ 63)
  | .readings _ | .timeSet _ | .timeGet _ | .editOpen _ | .editMeter _ | .editMeterDrop _
  | .editDma _ | .editDmaDrop _ | .editNight _ | .editCommit _ | .editDiscard _ | .configRead _
  | .suspend _ | .resume _ | .suspendList _ | .leakAck _ | .rebase _ | .relearn _ | .dmaStatus _
  | .meterStatus _ | .nightRead _ | .eventRead _ | .flagClear _ | .flagMask _
  | .paramSetDaylightSaving _ | .paramSetPortSettings _ | .partStatus _ | .unknownKind _
  | .frameEnd _ | .responseSent _ | .echoMismatch | .portReset _ | .portSettingsApplied _
  | .calendarTick | .calendarRangeEnd | .windowStart | .windowEnd | .graceEnd | .infillPass
  | .handOver | .settlementComplete | .settlementEnd | .holdTimerExpiry | .powerUp _ | .resetLine
  | .mainPowerLoss | .backupLatchSet | .backupGoodToLow | .backupLowToGood
  | .characterReceived _ _ _ => true

end Sys2Proof
end

