-- ==== Sys2Proof/Tests/Slice0.lean ====
section
/-!
SUPPORT. Small tests, each of one step on a small state, with expected values worked by hand from the manual's
rules and worked examples; and for each statement with hypotheses a witness that meets them.
-/

namespace Sys2Proof.Tests

open Sys2Proof Sys2Proof.Machine

-- One theorem after another: the kernel evaluations below need no threads of their own.
set_option Elab.async false

/-! ### Helpers -/

/-- The next state of a command. -/
def after (i : Instr) (s : State) : State :=
  match exec i s with
  | .next t => t
  | .fault _ | .refused _ => s

/-- A request frame of tag 7. -/
def frame (k : Octet) (payload : List Octet) : Frame := ⟨0x20, k, 7, payload⟩

/-- A state whose port p has one frame waiting and is sending nothing. -/
def ready (s : State) (p : Port) (k : Octet) (payload : List Octet) : State :=
  s.setPort p { s.port p with queue := [frame k payload], transmitter := none }

/-- The status and payload of the response that port p sends. -/
def reply (p : Port) (s : State) : Option (Status × List Octet) :=
  (s.port p).transmitter.map (fun x => (x.response.status, x.response.payload))

/-- A frame made ready may be taken. -/
theorem taking (s : State) (p : Port) (k : Octet) (payload : List Octet)
    (h : s.retention.powered = true) : Taking (ready s p k payload) p (frame k payload) k payload :=
  ⟨⟨[], h, by simp [ready], by simp [ready], by simp [frame]⟩, rfl, rfl⟩

/-- The same, with the queue's rest named. -/
theorem readyToTake (s : State) (p : Port) (k : Octet) (payload : List Octet)
    (h : s.retention.powered = true) :
    ReadyToTake (ready s p k payload) p (frame k payload) [] :=
  ⟨h, by simp [ready], by simp [ready], by simp [frame]⟩

/-- A FLOW meter at address 500, weight 10 L, and a PRESSURE meter at address 501. -/
def meters : Tbl MeterEntry :=
  [(0, ⟨500, .flow 3, 400, true⟩), (1, ⟨501, .pressure, 2000, true⟩)]

/-- A district with the one IN term of meter 0. -/
def district : DistrictEntry :=
  ⟨7, [⟨0, .inlet⟩], 640, 17, 0, some 1, 300, 1, 1, 400, 10, 3, 2, 2, 3, 2000⟩

/-- Its configuration set. -/
def set1 : ConfigSet := ⟨meters, [(0, district)], ⟨8, 8, 8⟩⟩

/-- Night 100 of the default parameters: W = 96 * 101 + 8. -/
def night : NightPlan := ⟨100, 0, 9704, 8, 9720⟩

/-- A QUIET district with baseline 9000. -/
def quiet : DistrictRuntime := ⟨.quiet, some 9000, 0, 0, 0, none, some 99, false⟩

/-- A LEAK district of night 98. -/
def leaking : DistrictRuntime := { quiet with alarm := .leak, record := some ⟨98, .nights⟩ }

/-- The part with that set active, the calendar VALID at t and the given phase. -/
def running (t : Nat) (cycle : NightCycle) : State :=
  { State.reset with
    config := ⟨set1, 5, none, none⟩
    intake := { State.reset.intake with runtime := [(0, ⟨.active, 1⟩), (1, ⟨.silent, 3⟩)] }
    districts := [(0, quiet)]
    calendar := { State.reset.calendar with t := t, valid := true, cycle := cycle } }

/-- The night open, its third interval just begun. -/
def opened : State := running (900 * 9706) (.opened night)

/-- DAY with night 100 planned, one second before its window start. -/
def dayBefore : State := running (900 * 9704 - 1) (.day (some night))

/-- A hold of port B on a staging copy of the set. -/
def hold : Hold := ⟨.b, set1, 300⟩

/-- The open night with that hold. -/
def editing : State := opened.setHold (some hold)

/-- The holder may take an edit. -/
theorem holding (k : Octet) (payload : List Octet) :
    HolderTaking (ready editing .b k payload) .b (frame k payload) k payload hold :=
  ⟨taking editing .b k payload rfl, by decide, rfl, rfl⟩

/-- A run of night 100 with district 0 remaining. -/
def run1 : Run := ⟨100, 9704, 8, false, false, true, [0], 0, 0, 0⟩

/-- The settling night with that run. -/
def settlingNow : State := { running (900 * 9720) (.settling night) with settlement := some run1 }

/-- A port C that is sending an OK response to a TIME_SET kind. -/
def sendingC : State :=
  State.reset.setPort .c { State.reset.port .c with
    transmitter := some ⟨⟨0x30, 0x84, 7, .ok, []⟩, 0⟩ }

/-! ### Well-formedness -/

theorem test_wellFormed_refuses_district_64 : (Instr.burstEntry 64).wellFormed = false := by decide

theorem test_wellFormed_admits_district_63 : (Instr.burstEntry 63).wellFormed = true := by decide

/-- The table gives no row any bits. -/
theorem test_no_word_spells_a_command : decodeTableWord 32 0x1234 = none := by decide

/-! ### One step of each command -/

/-- Section 1.3: an ended interval's first value is ACCEPTED and fills slot 0. -/
theorem test_readings :
    reply .b (after (.readings .b) (ready opened .b 0x01 [1, 244, 0, 101, 8, 1, 0, 37])) =
        some (.ok, [1, 0, 0, 0, 0, 0, 0, 0, 0, 1, 0, 100]) ∧
      slotAt (after (.readings .b)
        (ready opened .b 0x01 [1, 244, 0, 101, 8, 1, 0, 37])).intake.store 0 0 = .filled 37 := by
  decide +kernel

/-- Section 1.3: a value of the interval that has just begun is FUTURE. -/
theorem test_readings_future :
    reply .a (after (.readings .a) (ready opened .a 0x01 [1, 244, 0, 101, 10, 1, 0, 37])) =
      some (.ok, [0, 0, 0, 0, 1, 0, 0, 0, 0, 1, 0, 100]) := by
  decide +kernel

/-- 1 January 2030 is day 10 958. -/
theorem test_timeSet :
    (after (.timeSet .b)
      (ready State.reset .b 0x02 [7, 238, 1, 1, 0, 0, 1])).calendar.t = 86400 * 10958 + 1 := by
  decide +kernel

/-- The count 0 is 2000-01-01 00:00:00; INVALID, daylight saving OFF, no plan. -/
theorem test_timeGet :
    reply .a (after (.timeGet .a) (ready State.reset .a 0x03 [])) =
      some (.ok, [7, 208, 1, 1, 0, 0, 0, 7, 208, 1, 1, 0, 0, 0, 0, 0, 0, 0, 0, 0, 0, 0, 0, 0, 0, 0,
        0]) := by
  decide +kernel

theorem test_editOpen :
    (after (.editOpen .c) (ready State.reset .c 0x04 [])).config.hold =
      some ⟨.c, ConfigSet.lapsed, 300⟩ := by
  decide +kernel

theorem test_editOpen_held :
    reply .c (after (.editOpen .c) (ready editing .c 0x04 [])) = some (.held, [1]) := by
  decide +kernel

theorem test_editMeter :
    ((after (.editMeter .b) (ready editing .b 0x05 [0, 255, 2, 0, 0, 6, 255, 254, 1])).config.hold.map
      (fun h => tget h.staging.meters 255)) = some (some ⟨512, .flow 6, 65534, true⟩) := by
  decide +kernel

theorem test_editMeterDrop :
    ((after (.editMeterDrop .b) (ready editing .b 0x06 [0, 1])).config.hold.map
      (fun h => tkeys h.staging.meters)) = some [0] := by
  decide +kernel

/-- Section 10.5's layout written out by hand: code 7, one term 0 (meter 0 IN), P 640, A 17, Q 0, point 1,
Pref 300, exponent 1, R_min 1, T_abs 400, T_rel 10, K 3, M 2, learn 2, s 3, Tb 2000. -/
theorem test_editDma :
    ((after (.editDma .b) (ready editing .b 0x07
      [9, 0, 7, 1, 0, 0, 2, 128, 17, 0, 0, 0, 0, 0, 1, 1, 44, 1, 1, 0, 0, 1, 144, 10, 3, 2, 2, 3,
        0, 0, 7, 208])).config.hold.map (fun h => tget h.staging.districts 9)) =
      some (some district) := by
  decide +kernel

theorem test_editDmaDrop :
    reply .b (after (.editDmaDrop .b) (ready editing .b 0x08 [3])) = some (.unknownDma, []) := by
  decide +kernel

theorem test_editNight :
    reply .b (after (.editNight .b) (ready editing .b 0x09 [24, 8, 8])) = some (.range, []) := by
  decide +kernel

/-- A commit in OPEN is PENDING with the unchanged generation. -/
theorem test_editCommit :
    reply .b (after (.editCommit .b) (ready editing .b 0x0A [])) = some (.ok, [0, 0, 5]) := by
  decide +kernel

theorem test_editDiscard :
    (after (.editDiscard .b) (ready editing .b 0x0B [])).config.hold = none := by
  decide +kernel

/-- SUMMARY of the active set: 2 meters, 1 district, 1 term slot, generation 5. -/
theorem test_configRead :
    reply .a (after (.configRead .a) (ready opened .a 0x0C [0, 3, 0, 0])) =
      some (.ok, [0, 5, 1, 0, 2, 1, 0, 1]) := by
  decide +kernel

/-- In OPEN the reference night is the current one, and the mark is set. -/
theorem test_suspend :
    reply .c (after (.suspend .c) (ready opened .c 0x0D [1, 244, 0, 130])) =
      some (.ok, [0, 1, 0, 1, 244, 0, 130, 2]) := by
  decide +kernel

theorem test_resume :
    reply .c (after (.resume .c) (ready opened .c 0x0E [1, 244])) = some (.notSuspended, []) := by
  decide +kernel

theorem test_suspendList :
    reply .a (after (.suspendList .a)
      (ready (opened.setSuspensions [(1, ⟨130, .b⟩)]) .a 0x0F [])) =
      some (.ok, [1, 1, 1, 245, 0, 130, 1]) := by
  decide +kernel

theorem test_leakAck :
    (after (.leakAck .c)
      (ready (opened.setDistricts [(0, leaking)]) .c 0x10 [0, 0, 98])).districts =
      [(0, { leaking with alarm := .standing })] := by
  decide +kernel

theorem test_rebase :
    reply .b (after (.rebase .b) (ready opened .b 0x11 [0])) = some (.noNight, []) := by
  decide +kernel

theorem test_relearn :
    (after (.relearn .b) (ready opened .b 0x12 [0])).districts =
      [(0, ⟨.learning, none, 0, 0, 0, none, some 99, false⟩)] := by
  decide +kernel

/-- Baseline 9000 and threshold max(400, 10 percent of 9000) = 900. -/
theorem test_dmaStatus :
    reply .a (after (.dmaStatus .a) (ready opened .a 0x13 [0])) =
      some (.ok, [0, 7, 1, 0, 0, 35, 40, 0, 0, 3, 132, 0, 0, 0, 0, 0, 0, 0, 1, 0, 99, 0]) := by
  decide +kernel

theorem test_meterStatus :
    reply .a (after (.meterStatus .a) (ready dayBefore .a 0x14 [0, 1])) =
      some (.ok, [1, 245, 1, 1, 3, 0, 0]) := by
  decide +kernel

theorem test_nightRead :
    reply .a (after (.nightRead .a) (ready opened .a 0x15 [0, 0])) = some (.noNight, [0]) := by
  decide +kernel

/-- Section 10.5's layout of a night record written out by hand: night 99, code 7, NORMAL, BURST and BELOW_ALLOWANCE, 5
positions, j* 0, MNF -2, LNU 1088, L 0, Pavg absent, Lnorm 0, baseline 9000, QUIET. -/
theorem test_layRecord :
    layRecord ⟨99, 7, .normal, none, ⟨false, true, false, false, false, true, false, false⟩, 5, some 0,
      some (-2), 1088, some 0, none, some 0, some 9000, .quiet⟩ =
      [0, 99, 0, 7, 1, 0, 34, 5, 0, 255, 255, 255, 254, 0, 0, 4, 64, 0, 0, 0, 0, 0, 0, 0, 0, 0, 0,
        0, 0, 35, 40, 1] := by
  decide +kernel

/-- The first entry after a LAPSED power-up is RETENTION_LAPSED with serial 0. -/
theorem test_eventRead :
    reply .a (after (.eventRead .a) (ready State.reset .a 0x16 [8, 0, 0, 0, 0, 0])) =
      some (.ok, [1, 0, 0, 0, 0, 15, 0, 0, 0, 0, 0, 0, 0, 0, 0, 0]) := by
  decide +kernel

/-- EVT (unread) and TIME (INVALID) stand; LINK is cleared. -/
theorem test_flagClear :
    reply .a (after (.flagClear .a)
      (ready (State.reset.setPort .a { State.reset.port .a with link := true }) .a 0x17 [8])) =
      some (.ok, [17, 15, 0]) := by
  decide +kernel

theorem test_flagMask :
    reply .a (after (.flagMask .a) (ready State.reset .a 0x18 [17])) = some (.ok, [17, 1, 0]) := by
  decide +kernel

theorem test_paramSetDaylightSaving :
    (after (.paramSetDaylightSaving .b)
      (ready State.reset .b 0x19 [1, 1, 3, 5, 0, 2, 10, 5, 0, 2])).calendar.rules =
      ⟨true, ⟨3, 5, 0, 2⟩, ⟨10, 5, 0, 2⟩⟩ := by
  decide +kernel

theorem test_paramSetPortSettings :
    ((after (.paramSetPortSettings .b) (ready State.reset .b 0x19 [2, 2, 0x44, 4])).port .c).settings =
      ⟨0x44, .b115200⟩ := by
  decide +kernel

theorem test_partStatus :
    reply .c (after (.partStatus .c) (ready State.reset .c 0x1A [])) =
      some (.ok, [0, 0, 0, 0, 0, 0, 0, 0, 255, 1, 0, 0x10, 0, 0, 0, 0, 0, 0, 0, 0x20, 0, 0, 0, 0, 0,
        0, 0, 0x30, 0, 0, 0, 0, 0, 0, 0, 17, 15, 0]) := by
  decide +kernel

theorem test_unknownKind :
    reply .a (after (.unknownKind .a) (ready State.reset .a 0x1B [])) = some (.format, []) := by
  decide +kernel

/-- Section 9.2: the nine octets "123456789" give 0x29B1. -/
theorem test_crc :
    crc ([0x31, 0x32, 0x33, 0x34, 0x35, 0x36, 0x37, 0x38, 0x39] : List Octet) = 0x29B1 := by
  decide +kernel

/-- Fewer than 5 octets: discarded, LINK set. -/
theorem test_frameEnd :
    ((after (.frameEnd .a) (State.reset.setPort .a { State.reset.port .a with
      receiver := ⟨some ⟨[0x10, 1, 2, 3], false, false⟩, false⟩ })).port .a).discard = 1 := by
  decide +kernel

theorem test_responseSent :
    ((after (.responseSent .c) sendingC).port .c).transmitter = none := by
  decide +kernel

theorem test_echoMismatch : ((after .echoMismatch sendingC).port .c).bitError = 1 := by
  decide +kernel

theorem test_portReset : (after (.portReset .b) editing).config.hold = none := by
  decide +kernel

/-- A frame waiting at port A when its settings change is due is answered at the new rate, the command of the change
not yet taken (section 9.7). -/
theorem test_responseAtNewRate :
    ((after (.timeGet .a) (ready (State.reset.setPort .a { State.reset.port .a with
      settings := ⟨0x11, .b38400⟩, change := .ready }) .a 0x03 [])).port .a).line = ⟨0x11, .b38400⟩ := by
  decide +kernel

theorem test_portSettingsApplied :
    ((after (.portSettingsApplied .a) (State.reset.setPort .a { State.reset.port .a with
      settings := ⟨0x11, .b38400⟩, change := .ready })).port .a).line = ⟨0x11, .b38400⟩ := by
  decide +kernel

/-- All samples 0: a start bit, eight data bits 0 and a framing error. All samples 1 after 20 bit-times of idle: a false
start, after which the search resumes at once (R158), on port C while it transmits too (R162). -/
theorem test_characterReceived_framing_error_and_false_start :
    ((after (.characterReceived .a true 0) State.reset).port .a).receiver =
      ⟨some ⟨[], false, true⟩, false⟩ ∧
    ((after (.characterReceived .a true (BitVec.allOnes 160)) (State.reset.setPort .a
      { State.reset.port .a with receiver := ⟨none, true⟩ })).port .a).receiver = ⟨none, false⟩ ∧
    ((after (.characterReceived .c true (BitVec.allOnes 160)) (sendingC.setPort .c
      { sendingC.port .c with receiver := ⟨none, true⟩ })).port .c).receiver = ⟨none, false⟩ := by
  decide +kernel

/-- Stop bit 1 and data bit 0 (the least significant, sent first) 1: the octet 0x01. -/
theorem test_characterReceived :
    ((after (.characterReceived .a true ((0xFFFF <<< 144) ||| (0xFFFF <<< 16))) State.reset).port
      .a).receiver = ⟨some ⟨[0x01], false, false⟩, false⟩ := by
  decide +kernel

theorem test_calendarTick : (after .calendarTick State.reset).calendar.t = 1 := by decide +kernel

theorem test_calendarRangeEnd :
    (after .calendarRangeEnd (running 3155759999 (.day none))).calendar.cycle = .halted := by
  decide +kernel

theorem test_windowStart : (after .windowStart dayBefore).calendar.cycle = .opened night := by
  decide +kernel

theorem test_windowEnd :
    (after .windowEnd (running (900 * 9712 - 1) (.opened night))).calendar.cycle = .grace night := by
  decide +kernel

theorem test_graceEnd :
    (after .graceEnd (running (900 * 9720 - 1) (.grace night))).settlement =
      some ⟨100, 9704, 8, false, false, false, [0], 0, 0, 0⟩ := by
  decide +kernel

/-- R70: an entry still held at grace end is taken before the phase becomes SETTLING. -/
theorem test_graceEnd_takes_held :
    (after .graceEnd ((running (900 * 9720 - 1) (.grace night)).setBurst
      ⟨[], [0], [(0, 100)]⟩)).districts =
      [(0, { quiet with alarm := .leak, record := some ⟨100, .burst⟩ })] := by
  decide +kernel

/-- Section 4.3: 40 and 45 around a missing slot give 42. -/
theorem test_infillPass :
    (after .infillPass { settlingNow with
      settlement := some { run1 with infilled := false }
      intake := { settlingNow.intake with store := [(2, .filled 40), (4, .filled 45)] } }).intake.store =
      [(2, .filled 40), (3, .estimated 42), (4, .filled 45)] := by
  decide +kernel

/-- The worked examples of chapter 5: trunc(-267 / 8) = -33, and trunc(-5 / 8) = 0. -/
theorem test_updateBaseline :
    updateBaseline 3 8967 8700 = 8934 ∧ updateBaseline 3 9000 8995 = 9000 := by
  decide +kernel

/-- An empty store has no complete position: NOT_ASSESSED, INCOMPLETE. -/
theorem test_handOver :
    (after .handOver settlingNow).settlement = some { run1 with remaining := [], notAssessed := 1 } := by
  decide +kernel

theorem test_settlementComplete :
    (after .settlementComplete { settlingNow with
      settlement := some { run1 with remaining := [] } }).settlement = none := by
  decide +kernel

/-- The next planned night is 101. -/
theorem test_settlementEnd :
    (carriedPlan (after .settlementEnd { settlingNow with settlement := none }).calendar.cycle).map
      NightPlan.date = some 101 := by
  decide +kernel

/-- Section 3.6: a night entered at a settlement end under R75 is not marked CLOCK_STEPPED, whatever horizon a jump in
SETTLING left. -/
theorem test_settlementEnd_entry :
    (fun c : Calendar => (c.cycle, c.clockStepped, c.horizon)) (after .settlementEnd
      { settlingNow with
        settlement := none
        calendar := { settlingNow.calendar with
          t := 900 * 9705, entryDue := true, horizon := some (900 * 9705) } }).calendar =
      (.opened night, false, none) := by
  decide +kernel

theorem test_burstEntry :
    (after (.burstEntry 0) (opened.setBurst ⟨[], [0], [(0, 100)]⟩)).districts =
      [(0, { quiet with alarm := .leak, record := some ⟨100, .burst⟩ })] := by
  decide +kernel

/-- Section 2.4: a timer that has run to 0 expires. -/
theorem test_holdTimerExpiry :
    (after .holdTimerExpiry (opened.setHold (some { hold with timer := 0 }))).config.hold = none := by
  decide +kernel

/-- Section 2.4, request taken first: the holder's EDIT_OPEN restarts the timer and the expiry does not happen. -/
theorem test_holdTimerExpiry_after_restart :
    (after .holdTimerExpiry (after (.editOpen .b)
      (ready (opened.setHold (some { hold with timer := 0 })) .b 0x04 []))).config.hold =
      some hold := by
  decide +kernel

theorem test_powerUp :
    after (.powerUp .good) { opened with retention := ⟨false, .intact, true, .good⟩ } =
      State.reset := by
  decide +kernel

/-- A power-up with night 500 interrupted, its clock set back into the afternoon before night 100: night 100 is planned
(R76). -/
theorem test_powerUp_after_step_back :
    (after (.powerUp .good) { running (900 * 9680) .halted with
      retention := ⟨false, .intact, false, .good⟩
      calendar := { (running (900 * 9680) .halted).calendar with
        brokenOff := .collecting 500 } }).calendar.cycle = .day (some night) := by decide +kernel

/-- A reset line in SETTLING of night 100, its clock set back into the night's window: night 101 is planned, W = 96 * 102
+ 8 (R83). -/
theorem test_resetLine_in_settling :
    (after .resetLine (running (900 * 9705) (.settling night))).calendar.cycle =
      .day (some ⟨101, 0, 9800, 8, 9816⟩) := by decide +kernel

/-- A night whose span is still running is entered again, DISTURBED. -/
theorem test_resetLine : (after .resetLine opened).calendar.disturbed = true := by decide +kernel

theorem test_mainPowerLoss :
    (after .mainPowerLoss { opened with retention := ⟨true, .lapsed, false, .low⟩ }).retention =
      ⟨false, .lapsed, true, .low⟩ := by
  decide +kernel

theorem test_backupLatchSet :
    (after .backupLatchSet { opened with retention := ⟨false, .lapsed, false, .good⟩ }).retention.latch =
      true := by
  decide +kernel

theorem test_backupGoodToLow :
    ((after .backupGoodToLow opened).events.entries.map Event.night) = [0, 100] := by
  decide +kernel

theorem test_backupLowToGood :
    (after .backupLowToGood { opened with retention := ⟨true, .lapsed, false, .low⟩ }).events =
      opened.events := by
  decide +kernel

/-! ### Witnesses: states and operands that meet the hypotheses of each statement, clause by clause -/

/-- A state whose port B has one broadcast frame waiting. -/
def broadcast (k : Octet) (payload : List Octet) : State :=
  opened.setPort .b { opened.port .b with queue := [⟨0xFF, k, 7, payload⟩] }

/-- The holder of a state's hold may take an edit. -/
theorem holdingIn (s : State) (h : Hold) (k : Octet) (payload : List Octet)
    (hp : s.retention.powered = true) (hh : s.config.hold = some h) (hb : h.port = .b) :
    HolderTaking (ready s .b k payload) .b (frame k payload) k payload h :=
  ⟨taking s .b k payload hp, by decide, hh, hb⟩

/-- The default night parameters with daylight saving disabled: night d. -/
theorem planFor_default (r : DstRules) (h : r.enabled = false) (d : Nat) :
    planFor ⟨8, 8, 8⟩ r d = ⟨d, 0, 96 * (d + 1) + 8, 8, 96 * (d + 1) + 24⟩ := by
  simp [planFor, windowStartOf, nightOffset, inForce, h]

/-- A request with another kind waiting, its port sending, or main power absent; a frame of either item of PARAM_SET for
the other row; a window start two seconds ahead; a run with its pass taken; a hold at 1 second. -/
theorem witness_EveryCommandCompletes :
    NotDue (.timeGet .a) (ready opened .a 0x0F []) ∧ NotDue (.timeGet .c) sendingC ∧
    NotDue (.paramSetPortSettings .b) (ready opened .b 0x19 [1]) ∧
    NotDue .windowStart (running (900 * 9704 - 2) (.day (some night))) ∧ NotDue .infillPass settlingNow ∧
    NotDue .holdTimerExpiry (opened.setHold (some { hold with timer := 1 })) ∧
    NotDue .backupLatchSet opened ∧ NotDue .calendarRangeEnd (running 3155759998 .halted) := by
  refine ⟨fun p k h => ?_, fun p k h => ?_, fun p k h => ?_, .inr fun n h => ?_, .inr fun run h => ?_,
    .inr fun h hh => ?_, rfl, show 3155759998 < 3155759999 by decide⟩
  · cases h
    refine .inr (.inr fun f hf => ?_)
    cases hf
    simp [frame]
  · cases h
    exact .inr (.inl (by decide))
  · cases h
    refine .inr (.inr fun f hf => ?_)
    cases hf
    simp [ItemFits, frame]
  · cases h
    decide
  · cases h
    rfl
  · cases hh
    decide

theorem witness_StepTakesFrontCommand :
    ∃ s : State, s.pending = [.calendarTick, .portReset .a] :=
  ⟨{ State.reset with pending := [.calendarTick, .portReset .a] }, rfl⟩

theorem witness_RequestServiceChecks :
    (∀ k ∈ ([0x00, 0x1B] : List Octet),
      ReadyToTake (ready opened .a k []) .a (frame k []) [] ∧ (k.toNat < 1 ∨ 0x1A < k.toNat)) ∧
    (∃ s f, ReadyToTake s .a f [] ∧ requestOf (.timeSet .a) = some (.a, 0x02) ∧
      f.kind.toNat = 0x02 ∧ ItemFits (.timeSet .a) f ∧ Port.a ∉ roleTable 0x02) ∧
    (∃ s f, ReadyToTake s .c f [] ∧ f.kind.toNat = 0x19 ∧ ItemFits (.paramSetPortSettings .c) f ∧
      Port.c ∉ roleTable 0x19) ∧
    ∀ k ∈ ([0x00, 0x01, 0x02, 0x1A, 0x1B] : List Octet),
      (broadcast k [7, 208, 4, 11, 2, 31, 1]).retention.powered = true ∧
      ((broadcast k [7, 208, 4, 11, 2, 31, 1]).port .b).transmitter = none ∧
      ((broadcast k [7, 208, 4, 11, 2, 31, 1]).port .b).queue =
        [⟨0xFF, k, 7, [7, 208, 4, 11, 2, 31, 1]⟩] :=
  ⟨fun k hk => ⟨readyToTake opened .a k [] rfl, by revert k; decide⟩,
    ⟨_, _, readyToTake opened .a 0x02 [] rfl, rfl, rfl, trivial, by decide⟩,
    ⟨_, _, readyToTake opened .c 0x19 [2] rfl, rfl, nofun, by decide⟩,
    fun _ _ => ⟨rfl, rfl, rfl⟩⟩

theorem witness_StagingHoldOpensCountsAndEnds :
    (∃ s f, Taking s .c f 0x04 [] ∧ s.config.hold = none) ∧
    (∃ s f h, Taking s .b f 0x04 [] ∧ s.config.hold = some h ∧ h.port = .b) ∧
    (∃ s f h, Taking s .c f 0x04 [] ∧ s.config.hold = some h ∧ h.port ≠ .c) ∧
    (∃ s f h, HolderTaking s .b f 0x0B [] h) ∧
    (∃ s : State, s.pending = [] ∧ s.retention.powered = false) ∧
    (∃ s : State, s.pending = [] ∧ s.config.hold = none) ∧
    ∀ n ∈ [0, 1, 300], ∃ (s : State) (h : Hold), s.retention.powered = true ∧ s.config.hold = some h ∧
      s.pending = [] ∧ h.timer = n :=
  ⟨⟨_, _, taking opened .c 0x04 [] rfl, rfl⟩, ⟨_, _, _, taking editing .b 0x04 [] rfl, rfl, rfl⟩,
    ⟨_, _, hold, taking editing .c 0x04 [] rfl, rfl, by decide⟩, ⟨_, _, _, holding 0x0B []⟩,
    ⟨{ State.reset with retention := ⟨false, .intact, false, .good⟩ }, rfl, rfl⟩,
    ⟨State.reset, rfl, rfl⟩,
    fun n _ => ⟨opened.setHold (some { hold with timer := n }), { hold with timer := n }, rfl, rfl, rfl,
      rfl⟩⟩

/-- One octet too many or too few for each kind whose length is fixed, and the two lengths that go with a count or an
item. -/
theorem witness_LengthAndHoldAreChecked :
    (∃ s f, ReadyToTake s .b f [] ∧ requestOf (.timeSet .b) = some (.b, 0x02) ∧ f.kind.toNat = 0x02 ∧
      ItemFits (.timeSet .b) f ∧ Port.b ∈ roleTable 0x02 ∧ ¬ LengthFits 0x02 f.payload) ∧
    (∃ s f, ReadyToTake s .b f [] ∧ requestOf (.editNight .b) = some (.b, 0x09) ∧
      f.kind.toNat = 0x09 ∧ Port.b ∈ roleTable 0x09 ∧ ¬ LengthFits 0x09 f.payload ∧
      ∃ h, s.config.hold = some h ∧ h.port = .b) ∧
    (∀ item ∈ ([1, 2] : List Octet), ∃ s f, ReadyToTake s .b f [] ∧ f.kind.toNat = 0x19 ∧
      Port.b ∈ roleTable 0x19 ∧
      ItemFits (if item = 1 then .paramSetDaylightSaving .b else .paramSetPortSettings .b) f ∧
      ¬ LengthFits 0x19 f.payload) ∧
    (∃ s f, ReadyToTake s .c f [] ∧ requestOf (.editNight .c) = some (.c, 0x09) ∧
      f.kind.toNat = 0x09 ∧ Port.c ∈ roleTable 0x09 ∧ ¬ ∃ h, s.config.hold = some h ∧ h.port = .c) ∧
    ∃ s f, ReadyToTake s .b f [] ∧ requestOf (.editCommit .b) = some (.b, 0x0A) ∧
      f.kind.toNat = 0x0A ∧ f.payload = [] ∧ Port.b ∈ roleTable 0x0A ∧
      ¬ ∃ h, s.config.hold = some h ∧ h.port = .b := by
  refine ⟨⟨_, _, readyToTake opened .b 0x02 [7, 208, 1, 1, 0, 0] rfl, rfl, rfl, trivial, by decide,
      (nomatch ·)⟩,
    ⟨_, _, readyToTake editing .b 0x09 [8, 8, 8, 0] rfl, rfl, rfl, by decide, (nomatch ·), hold, rfl, rfl⟩,
    fun item h => ⟨_, _, readyToTake opened .b 0x19 [item] rfl, rfl, by decide, ?_, ?_⟩,
    ⟨_, _, readyToTake editing .c 0x09 [] rfl, rfl, rfl, by decide, ?_⟩,
    _, _, readyToTake opened .b 0x0A [] rfl, rfl, rfl, rfl, by decide, fun ⟨_, h, _⟩ => nomatch h⟩
  · simp only [List.mem_cons, List.not_mem_nil, or_false] at h
    rcases h with rfl | rfl <;> simp [ItemFits, frame]
  · simp [LengthFits, frame]
  · rintro ⟨h, hh, hp⟩
    cases hh
    exact absurd hp (by decide)

theorem witness_EditDmaWritesOneEntry :
    (∃ s f h, district.InRange 63 ∧ HolderTaking s .b f 0x07 (layDistrict 63 district) h) ∧
    (∃ s f h, HolderTaking s .b f 0x07 [0, 0, 7, 9] h ∧ 8 < (([0, 0, 7, 9] : List Octet).getD 3 0).toNat) ∧
    ∃ s f h payload, HolderTaking s .b f 0x07 payload h ∧ payload.length = 32 ∧
      payload.getD 3 0 = 1 ∧ ∀ d (e : DistrictEntry), e.InRange d → payload ≠ layDistrict d e := by
  refine ⟨⟨_, _, _, by unfold DistrictEntry.InRange; decide, holding _ _⟩,
    ⟨_, _, _, holding _ _, by decide⟩,
    _, _, _, layDistrict 64 district, holding _ _, by decide, by decide, fun d e h heq => ?_⟩
  have hd : d ≤ 63 := h.1
  have ho : oct 64 = oct d := (List.cons.inj heq).1
  have := congrArg BitVec.toNat ho
  simp [oct] at this
  omega

theorem witness_EditsChangeOnePlace :
    (∃ s f h, HolderTaking s .b f 0x05 [0, 255, 255, 254, 0, 6, 255, 254, 1] h ∧
      u16 0 255 ≤ 255 ∧ u16 255 254 ≤ 65534 ∧ (6 : Octet).toNat ≤ 6 ∧ (1 : Octet).toNat ≤ 1) ∧
    (∃ s f h, HolderTaking s .b f 0x05 [0, 0, 0, 1, 1, 255, 7, 208, 0] h ∧
      1 ≤ u16 0 1 ∧ 1 ≤ u16 7 208 ∧ u16 7 208 ≤ 2000) ∧
    (∃ s f h, HolderTaking s .b f 0x05 [1, 0, 0, 1, 1, 255, 7, 209, 0] h ∧
      255 < u16 1 0 ∧ 2000 < u16 7 209) ∧
    (∃ s f h, HolderTaking s .b f 0x06 [0, 255] h) ∧ (∃ s f h, HolderTaking s .b f 0x08 [63] h) ∧
    ∃ s f h, HolderTaking s .b f 0x09 [23, 24, 16] h :=
  ⟨⟨_, _, _, holding _ _, by decide⟩, ⟨_, _, _, holding _ _, by decide⟩,
    ⟨_, _, _, holding _ _, by decide⟩, ⟨_, _, _, holding _ _⟩, ⟨_, _, _, holding _ _⟩, _, _, _,
    holding _ _⟩

/-- A set that passes, and for each reason one it refuses, with the record section 2.5's table names. -/
def commitCases : List (ConfigSet × Option (Invalid × Nat)) :=
  [(set1, none),
    ({ set1 with meters := meters ++ [(2, ⟨500, .flow 0, 1, false⟩)] }, some (.addressClash, 2)),
    ({ set1 with districts := [(4, { district with terms := [⟨9, .inlet⟩] })] },
      some (.unknownMeter, 4)),
    ({ set1 with districts := [(4, { district with terms := [⟨1, .inlet⟩] })] }, some (.kind, 4)),
    ({ set1 with districts := [(4, { district with terms := [⟨0, .outlet⟩] })] }, some (.terms, 4)),
    ({ set1 with districts := [(0, district), (1, district)] }, some (.overuse, 0))]

theorem witness_CommitReportsFirstFailure :
    ∀ x ∈ commitCases,
      (tableWf x.1.meters = true ∧ tableWf x.1.districts = true) ∧ validate x.1 = x.2 := by
  decide +kernel

/-- The cycle's law in the open night, in DAY one second before a window start, and in HALTED. -/
theorem lawful_opened : CycleLawful opened :=
  ⟨by decide, ⟨⟨by decide, by decide⟩, by decide⟩, fun _ => rfl, nofun⟩

theorem lawful_dayBefore : CycleLawful dayBefore :=
  ⟨by decide, ⟨⟨by decide, by decide⟩, by decide⟩, fun _ => rfl, nofun⟩

/-- HALTED with a command waiting. -/
def halted : State := { State.reset with pending := [.calendarTick] }

theorem lawful_halted : CycleLawful halted :=
  ⟨by decide, trivial, fun _ => rfl, nofun⟩

theorem witness_CommitMakesPendingOrInstalls :
    (∃ s f h, CycleLawful s ∧ HolderTaking s .b f 0x0A [] h ∧ validate h.staging = none ∧
      s.calendar.cycle = .opened night) ∧
    (∃ s f h, CycleLawful s ∧ HolderTaking s .b f 0x0A [] h ∧ validate h.staging = none ∧
      s.calendar.cycle = .day (some night)) ∧
    (∃ s f h, CycleLawful s ∧ HolderTaking s .b f 0x0A [] h ∧ validate h.staging = none ∧
      s.calendar.cycle = .halted) ∧
    ∃ s f h, CycleLawful s ∧ HolderTaking s .b f 0x0A [] h ∧ s.calendar.cycle = .opened night ∧
      validate h.staging = some (.unknownMeter, 0) :=
  ⟨⟨ready editing .b 0x0A [], _, _, lawful_opened, holding _ _, by decide +kernel, rfl⟩,
    ⟨ready (dayBefore.setHold (some hold)) .b 0x0A [], _, _, lawful_dayBefore,
      holdingIn _ hold _ _ rfl rfl rfl, by decide +kernel, rfl⟩,
    ⟨ready (halted.setHold (some hold)) .b 0x0A [], _, _,
      lawful_halted, holdingIn _ hold _ _ rfl rfl rfl, by decide +kernel, rfl⟩,
    ready (opened.setHold (some { hold with staging := { set1 with meters := [] } })) .b 0x0A [], _,
      { hold with staging := { set1 with meters := [] } }, lawful_opened,
      holdingIn _ _ _ _ rfl rfl rfl, rfl, by decide +kernel⟩

/-- A pending set that keeps district 0, changes a term of district 1 and the night counts of districts 2 to 4,
drops district 5 and adds district 6; meter 1 has a new address. -/
def installing : State :=
  let e : DistrictEntry := { district with pressurePoint := none }
  let judged : DistrictEntry := { e with confirmNights := 2, clearNights := 1, learnNights := 1 }
  { dayBefore with
    config := ⟨⟨meters, [(0, e), (1, e), (2, e), (3, e), (4, e), (5, e)], ⟨8, 8, 8⟩⟩, 0xFFFF,
      some ⟨⟨[(0, ⟨500, .flow 3, 400, true⟩), (1, ⟨502, .pressure, 2000, true⟩)],
        [(0, e), (1, { e with terms := [⟨0, .inlet⟩, ⟨7, .outlet⟩] }), (2, judged), (3, judged),
          (4, judged), (6, e)], ⟨8, 8, 8⟩⟩, .c⟩, none⟩
    districts := [(0, quiet), (1, leaking), (2, ⟨.learning, none, 1, 0, 0, none, none, false⟩),
      (3, ⟨.watch, some 9000, 0, 2, 0, none, some 99, false⟩), (4, leaking), (5, quiet)] }

/-- Section 5.5's balance fields agree, each entry with its own meter table; and its judgement fields. -/
def balanceAlike (old new : ConfigSet) (o e : DistrictEntry) : Bool :=
  let address (c : ConfigSet) (m : Nat) : Option Nat := (tget c.meters m).map MeterEntry.address
  decide ((o.terms.map (fun x => (x, address old x.meter))).Perm
      (e.terms.map (fun x => (x, address new x.meter))) ∧ o.pressurePoint = e.pressurePoint ∧
    (∀ m ∈ e.pressurePoint, address old m = address new m) ∧ o.refPressure = e.refPressure ∧
    o.exponent = e.exponent ∧ o.properties = e.properties ∧ o.perProperty = e.perProperty ∧
    o.nonHousehold = e.nonHousehold)

theorem witness_InstallationAdjustsEveryBlock :
    ∃ (s : State) (pd : PendingSet), s.config.pending = some pd ∧
      s.calendar.cycle = .day (some night) ∧
      tget pd.config.districts 5 = none ∧
      (tget pd.config.districts 6 = some { district with pressurePoint := none } ∧
        tget s.config.active.districts 6 = none) ∧
      (∃ o, tget s.config.active.districts 0 = some o ∧ tget pd.config.districts 0 = some o ∧
        tget s.districts 0 = some quiet ∧ balanceAlike s.config.active pd.config o o = true) ∧
      (∃ o e, tget s.config.active.districts 1 = some o ∧ tget pd.config.districts 1 = some e ∧
        tget s.districts 1 = some leaking ∧ balanceAlike s.config.active pd.config o e = false) ∧
      ∀ d ∈ [2, 3, 4], ∃ o e r, tget s.config.active.districts d = some o ∧
        tget pd.config.districts d = some e ∧ tget s.districts d = some r ∧
        balanceAlike s.config.active pd.config o e = true ∧ o.confirmNights ≠ e.confirmNights := by
  refine ⟨installing, _, rfl, rfl, rfl, ⟨rfl, rfl⟩, ⟨_, rfl, rfl, rfl, ?_⟩,
    ⟨_, _, rfl, rfl, rfl, ?_⟩, ?_⟩
  · decide +kernel
  · decide +kernel
  · simp only [List.mem_cons, List.not_mem_nil, or_false, forall_eq_or_imp, forall_eq]
    exact ⟨⟨_, _, _, rfl, rfl, rfl, by decide +kernel, by decide⟩,
      ⟨_, _, _, rfl, rfl, rfl, by decide +kernel, by decide⟩,
      _, _, _, rfl, rfl, rfl, by decide +kernel, by decide⟩

/-- A batch of 24 values for the last interval of the last admitted night date, to an address no meter has; a batch of
two values, and one that runs past the last day. -/
theorem witness_ReadingsBatchChecks :
    (∃ s f, Taking s .a f 0x01 [1, 244, 142, 172, 95, 25]) ∧
    (∃ s f, Taking s .a f 0x01 [1, 244, 142, 173, 95, 1, 0, 0] ∧ u16 142 173 = 36525) ∧
    (∃ s f, Taking s .b f 0x01 [1, 244, 142, 172, 95, 1, 0, 0] ∧ u16 142 172 = 36524 ∧
      s.calendar.valid = false) ∧
    (∃ s f, Taking s .b f 0x01 [0, 1, 142, 172, 95, 1, 0, 0] ∧ s.calendar.valid = true ∧
      ∀ x ∈ s.config.active.meters, x.2.address ≠ u16 0 1) ∧
    (∃ s f, Taking s .b f 0x01 ([1, 244, 0, 101, 8, 24] ++ List.replicate 48 0) ∧
      s.calendar.valid = true ∧ ¬ ∀ x ∈ s.config.active.meters, x.2.address ≠ u16 1 244) ∧
    ∀ x ∈ [9704, 36524 * 96 + 95], ∃ s f, ReadyToTake s .b f [] ∧ f.kind = 0x01 ∧
      f.payload = [1, 244] ++ be16 (x / 96) ++ [oct (x % 96), oct 2] ++ [37, 65535].flatMap be16 ∧
      x / 96 ≤ 36524 ∧ s.calendar.valid = true ∧ s.calendar.t ≤ 3155759999 ∧
      ∃ y ∈ s.config.active.meters, y.2.address = u16 1 244 :=
  ⟨⟨_, _, taking opened _ _ _ rfl⟩, ⟨_, _, taking opened _ _ _ rfl, by decide⟩,
    ⟨_, _, taking State.reset _ _ _ rfl, by decide, rfl⟩,
    ⟨_, _, taking opened _ _ _ rfl, rfl, by decide⟩, ⟨_, _, taking opened _ _ _ rfl, rfl, by decide⟩,
    fun x hx => ⟨_, _, readyToTake opened .b 0x01 _ rfl, rfl, rfl, by revert x; decide, rfl,
      show opened.calendar.t ≤ _ by decide,
      show ∃ y ∈ opened.config.active.meters, y.2.address = u16 1 244 by decide⟩⟩

/-- A batch of one value v for an interval of day d, to meter 0's address. -/
def one (d first v1 v0 : Octet) : List Octet := [1, 244, 0, d, first, 1, v1, v0]

/-- A state of the set above may take that batch. -/
theorem oneReading (s : State) (d first v1 v0 : Octet) (h : s.retention.powered = true)
    (hv : s.calendar.valid = true) (hm : s.config.active.meters = meters) (hi : first.toNat ≤ 95) :
    OneReading (ready s .b 0x01 (one d first v1 v0)) .b (frame 0x01 (one d first v1 v0)) 0
      ⟨500, .flow 3, 400, true⟩ (d.toNat * 96 + first.toNat) (u16 v1 v0) := by
  refine ⟨1, 244, 0, d, first, v1, v0, taking s .b 0x01 _ h, by decide, ?_, hi, hv, ?_,
    by simp [u16], rfl⟩
  · have := d.isLt
    simp [u16]; omega
  · show meterAt s.config.active.meters _ = _
    rw [hm]; decide

/-- The open night with a closed window before it. -/
def withClosed : State :=
  opened.setCalendar { opened.calendar with closed := some ⟨99, 9608, 8⟩ }

/-- A GAP; a value of an interval that has one second to go; the last of the closed window and the first after it;
one of a suspended meter. -/
theorem witness_UnfiledReadingsChangeNothing :
    (∃ s f x, OneReading s .b f 0 ⟨500, .flow 3, 400, true⟩ x 0xFFFF) ∧
    (∃ s f x, OneReading s .b f 0 ⟨500, .flow 3, 400, true⟩ x 37 ∧
      s.calendar.t + 1 = 900 * (x + 1)) ∧
    (∃ s f x, OneReading s .b f 0 ⟨500, .flow 3, 400, true⟩ x 37 ∧ 900 * (x + 1) ≤ s.calendar.t ∧
      s.calendar.cycle = .opened night ∧ x < night.window ∧
      ∃ w ∈ s.calendar.closed, w.window ≤ x ∧ x + 1 = w.window + w.length) ∧
    (∃ s f x, OneReading s .b f 0 ⟨500, .flow 3, 400, true⟩ x 37 ∧ 900 * (x + 1) ≤ s.calendar.t ∧
      s.calendar.cycle = .opened night ∧ x < night.window ∧
      ¬ ∃ w ∈ s.calendar.closed, w.window ≤ x ∧ x < w.window + w.length) ∧
    ∃ s f x, OneReading s .b f 0 ⟨500, .flow 3, 400, true⟩ x 37 ∧ 900 * (x + 1) ≤ s.calendar.t ∧
      s.calendar.cycle = .opened night ∧ x = night.window ∧ 0 ∈ s.intake.suspended :=
  ⟨⟨_, _, _, oneReading opened 101 8 255 255 rfl rfl rfl (by decide)⟩,
    ⟨_, _, _, oneReading (running (900 * 9706 - 1) (.opened night)) 101 9 0 37 rfl rfl rfl (by decide),
      by decide⟩,
    ⟨_, _, _, oneReading withClosed 100 15 0 37 rfl rfl rfl (by decide), by decide, rfl, by decide,
      _, rfl, by decide, by decide⟩,
    ⟨_, _, _, oneReading withClosed 100 16 0 37 rfl rfl rfl (by decide), by decide, rfl, by decide,
      by rintro ⟨w, ⟨⟩, h⟩; revert h; decide⟩,
    _, _, _, oneReading (opened.setIntake { opened.intake with suspended := [0] }) 101 8 0 37 rfl rfl
      rfl (by decide), by decide, rfl, by decide, by decide⟩

/-- The open night with slot 1 of meter 0 as given. -/
def slotIs (store : Tbl Slot) (reported : IdxSet) : State :=
  opened.setIntake { opened.intake with store := store, rangeReported := reported }

/-- Slot 1 ends exactly at t; the maximum is 400. -/
theorem witness_FiledReadings :
    ∀ x ∈ ([([], []), ([], [0]), ([(1, .filled 400)], []), ([(1, .filled 399)], []),
        ([(1, .conflict)], [])] : List (Tbl Slot × IdxSet)),
      ∀ v ∈ ([(1, 144), (1, 145)] : List (Octet × Octet)), ∃ s f,
        OneReading s .b f 0 ⟨500, .flow 3, 400, true⟩ 9705 (u16 v.1 v.2) ∧
        s.intake.store = x.1 ∧ s.intake.rangeReported = x.2 ∧ storeWf s.intake.store = true ∧
        s.calendar.cycle = .opened night ∧ night.window + 1 = 9705 ∧
        9705 < night.window + night.length ∧ u16 v.1 v.2 ≠ 0xFFFF ∧
        900 * (9705 + 1) = s.calendar.t ∧ 0 ∉ s.intake.suspended := by
  intro x hx v hv
  refine ⟨_, _, oneReading (slotIs x.1 x.2) 101 9 v.1 v.2 rfl rfl rfl (by decide), rfl, rfl, ?_, rfl,
    by decide, by decide, ?_, rfl, nofun⟩
  · show storeWf x.1 = true
    simp only [List.mem_cons, List.not_mem_nil, or_false] at hx
    rcases hx with rfl | rfl | rfl | rfl | rfl <;> decide
  · simp only [List.mem_cons, List.not_mem_nil, or_false] at hv
    rcases hv with rfl | rfl <;> decide

theorem witness_FilingOrderLeavesOneStore :
    ∃ s f g s1 s2 t1 t2, Canonical s ∧ ReadyToTake s .a f [] ∧ ReadyToTake s .b g [] ∧
      f.kind = 0x01 ∧ g.kind = 0x01 ∧ exec (.readings .a) s = .next s1 ∧
      exec (.readings .b) s1 = .next s2 ∧ exec (.readings .b) s = .next t1 ∧
      exec (.readings .a) t1 = .next t2 := by
  refine ⟨ready (ready opened .a 0x01 (one 101 9 0 37)) .b 0x01 (one 101 9 0 38), _, _, _, _, _, _, ?_,
    ⟨rfl, rfl, rfl, by decide⟩, ⟨rfl, rfl, rfl, by decide⟩, rfl, rfl, rfl, rfl, rfl, rfl⟩
  unfold Canonical ConfigSet.Canonical
  exact ⟨by decide, nofun, nofun, by decide, by decide, by decide, by decide, by decide, by decide,
    by decide, by decide, by decide, by decide, by decide⟩

/-- Six octets; 2100; 30 February of a leap year; and 2000-04-11 02:31:00 and 02:31:01, 60 and 61 seconds ahead. -/
theorem witness_TimeSetStepsTheCalendar :
    (∃ s f, Taking s .b f 0x02 [7, 208, 1, 1, 0, 0]) ∧
    (∃ s f, Taking s .b f 0x02 [8, 52, 1, 1, 0, 0, 0] ∧ 2099 < u16 8 52) ∧
    (∃ s f, Taking s .b f 0x02 [7, 208, 2, 30, 0, 0, 0] ∧ monthLength (u16 7 208) 2 < 30) ∧
    ∀ x ∈ ([(0, 60), (1, 61)] : List (Octet × Nat)), ∃ s f,
      Taking s .b f 0x02 [7, 208, 4, 11, 2, 31, x.1] ∧
      civilInRange ⟨u16 7 208, 4, 11, 2, 31, x.1.toNat⟩ = true ∧ s.calendar.valid = true ∧
      instantOf ⟨u16 7 208, 4, 11, 2, 31, x.1.toNat⟩ = s.calendar.t + x.2 := by
  refine ⟨⟨_, _, taking opened _ _ _ rfl⟩, ⟨_, _, taking opened _ _ _ rfl, by decide⟩,
    ⟨_, _, taking opened _ _ _ rfl, by decide⟩, ?_⟩
  simp only [List.mem_cons, List.not_mem_nil, or_false, forall_eq_or_imp, forall_eq]
  exact ⟨⟨_, _, taking opened _ _ _ rfl, by decide, rfl, by decide⟩,
    _, _, taking opened _ _ _ rfl, by decide, rfl, by decide⟩

/-- The state in which a first setting to t meets the cycle. -/
def firstSet (t : Nat) : State :=
  State.reset.setCalendar { State.reset.calendar with t := t, valid := true }

/-- The entry into the cycle one second before and at night 0's window start, and on 2099-12-31 04:00:00, when night
36523 has ended and night 36524 is not planned. -/
theorem test_firstEntry :
    (∃ e, FirstEntry (firstSet 93599) e 0 ∧ e.calendar.cycle = .day (some ⟨0, 0, 104, 8, 120⟩)) ∧
    (∃ e, FirstEntry (firstSet 93600) e 0 ∧ e.calendar.cycle = .opened ⟨0, 0, 104, 8, 120⟩) ∧
    ∃ e, FirstEntry (firstSet 3155688000) e 0 ∧ e.calendar.cycle = .day none ∧
      e.calendar.closed = some ⟨36522, 96 * 36523 + 8, 8⟩ := by
  have h (t d : Nat) : planFor (firstSet t).config.active.night (firstSet t).calendar.rules d =
      ⟨d, 0, 96 * (d + 1) + 8, 8, 96 * (d + 1) + 24⟩ := planFor_default _ rfl d
  have ht (t : Nat) : (firstSet t).calendar.t = t := rfl
  simp only [FirstEntry, ClosedAt, h, ht, NightPlan.startsAt, NightPlan.endsAt, NightPlan.closesAt,
    Config.intervalSeconds]
  refine ⟨⟨_, ⟨0, none, nofun, by omega, fun k _ => .inr (by omega), .inl ⟨rfl, fun k => by omega⟩,
      .inr (.inl ⟨by omega, by omega, rfl, rfl⟩)⟩, rfl⟩,
    ⟨_, ⟨0, none, nofun, by omega, fun k _ => .inr (by omega), .inl ⟨rfl, fun k => by omega⟩,
      .inr (.inr ⟨by omega, by omega, rfl, rfl⟩)⟩, rfl⟩,
    _, ⟨36524, some ⟨36522, 96 * 36523 + 8, 8⟩, nofun, by omega, fun k _ => .inr (by omega),
      .inr ⟨36522, rfl, by omega, fun j _ => by omega⟩, .inl ⟨by omega, rfl, trivial⟩⟩, rfl, rfl⟩

/-- HALTED without and with a pending set, and SETTLING with the calendar INVALID. -/
theorem witness_FirstSettingEntersTheCycle :
    (∀ pending ∈ [none, some (⟨set1, .b⟩ : PendingSet)], ∃ s f,
      Taking s .b f 0x02 [7, 208, 1, 2, 1, 59, 59] ∧
      civilInRange ⟨u16 7 208, 1, 2, 1, 59, 59⟩ = true ∧ s.calendar.valid = false ∧
      s.calendar.cycle = .halted ∧ nightInRange s.config.active.night = true ∧
      s.config.pending = pending) ∧
    ∃ s f, Taking s .b f 0x02 [7, 208, 1, 2, 1, 59, 59] ∧ s.calendar.valid = false ∧
      s.calendar.cycle = .settling night :=
  ⟨fun pending _ => ⟨_, _, taking (State.reset.setConfig { State.reset.config with pending := pending })
      _ _ _ rfl, by decide, rfl, rfl, show nightInRange NightParams.default = true by decide, rfl⟩,
    _, _, taking (settlingNow.setCalendar { settlingNow.calendar with valid := false }) _ _ _ rfl, rfl,
    rfl⟩

/-- The rules of section 3.3's worked example: the last Sundays of March and October, hour 2. -/
def workedRules : DstRules := ⟨true, ⟨3, 5, 0, 2⟩, ⟨10, 5, 0, 2⟩⟩

/-- The four nights of section 3.3's worked example (window start 02:00 local, n = 8, grace = 8). -/
theorem test_planFor_worked_example :
    planFor ⟨8, 8, 8⟩ workedRules 11046 = ⟨11046, 0, 1060520, 8, 1060536⟩ ∧
    planFor ⟨8, 8, 8⟩ workedRules 11047 = ⟨11047, 4, 1060612, 8, 1060628⟩ ∧
    planFor ⟨8, 8, 8⟩ workedRules 11256 = ⟨11256, 4, 1080676, 8, 1080692⟩ ∧
    planFor ⟨8, 8, 8⟩ workedRules 11257 = ⟨11257, 0, 1080776, 8, 1080792⟩ := by decide +kernel

/-- The days of the same example: 1 January, 31 March and 27 October 2030. -/
theorem test_dayOfDate_worked_example :
    dayOfDate 2030 1 1 = 10958 ∧ dayOfDate 2030 3 31 = 11047 ∧ dayOfDate 2030 10 27 = 11257 := by decide +kernel

theorem witness_DaylightSavingAndTheNightPlan :
    (∃ s f, CycleLawful s ∧ Taking s .b f 0x19 [1, 1, 13, 1, 0, 0, 12, 5, 6, 23]) ∧
    (∃ s f, CycleLawful s ∧ Taking s .b f 0x19 [1, 1, 1, 1, 0, 0, 12, 5, 6, 23] ∧
      s.calendar.cycle = .opened night) ∧
    (∃ s f, CycleLawful s ∧ Taking s .b f 0x19 [1, 0, 1, 1, 0, 0, 12, 5, 6, 23] ∧
      s.calendar.cycle = .day (some night) ∧
      s.calendar.t + 1 = (planFor s.config.active.night
        ⟨false, ⟨1, 1, 0, 0⟩, ⟨12, 5, 6, 23⟩⟩ night.date).startsAt) ∧
    (∀ w ∈ [1, 4, 5], ∃ r : DstRule, r.month = 12 ∧ r.week = w ∧ r.weekday = 6) ∧
    (∃ t y, 2000 ≤ y ∧ t / 86400 = dayOfDate y 1 1 ∧ t / 86400 < dayOfDate (y + 1) 1 1) ∧
    ∀ start ∈ [0, 23, 72, 95], nightInRange ⟨start, 4, 0⟩ = true :=
  ⟨⟨ready opened .b _ _, _, lawful_opened, taking opened _ _ _ rfl⟩,
    ⟨ready opened .b _ _, _, lawful_opened, taking opened _ _ _ rfl, rfl⟩,
    ⟨ready dayBefore .b _ _, _, lawful_dayBefore, taking dayBefore _ _ _ rfl, rfl, by decide⟩,
    fun w _ => ⟨⟨12, w, 6, 0⟩, rfl, rfl, rfl⟩, ⟨86400 * 10958, 2030, by decide +kernel⟩, by decide⟩

theorem witness_TickCountsAndEndsTheRange :
    (∃ s : State, s.calendar.t + 1 = 3155759999 ∧ NothingDue s.calendar.cycle (s.calendar.t + 1)) ∧
    (∃ s : State, s.calendar.t + 2 = 900 * (night.window + night.length) ∧
      NothingDue s.calendar.cycle (s.calendar.t + 1) ∧ s.calendar.cycle = .opened night) ∧
    ∀ c ∈ ([.day none, .halted, .settling night] : List NightCycle),
      ∀ pending ∈ [none, some (⟨set1, .b⟩ : PendingSet)], ∃ s : State,
        s.calendar.t = 3155759999 ∧ s.calendar.cycle = c ∧ s.config.pending = pending :=
  ⟨⟨running 3155759998 (.day none), by decide, trivial⟩,
    ⟨running (900 * 9712 - 2) (.opened night), by decide, ⟨⟨by decide, by decide⟩, by decide⟩, rfl⟩,
    fun c _ pending _ => ⟨{ running 3155759999 c with config := ⟨set1, 5, pending, none⟩ }, rfl, rfl, rfl⟩⟩

theorem witness_WindowStartEntersTheNight :
    ∃ s : State, s.retention.powered = true ∧ s.calendar.cycle = .day (some night) ∧
      0 < night.length ∧ s.calendar.t < 3155759999 ∧ s.calendar.t + 1 = 900 * night.window :=
  ⟨dayBefore, by decide⟩

theorem witness_WindowEndAndGraceEnd :
    (∃ s : State, s.retention.powered = true ∧ s.calendar.cycle = .opened night ∧
      s.calendar.t + 1 = 900 * (night.window + night.length) ∧
      night.window + night.length < night.graceEnd) ∧
    (∃ (s : State) (n : NightPlan), s.retention.powered = true ∧ s.calendar.cycle = .opened n ∧
      s.calendar.t + 1 = 900 * (n.window + n.length) ∧ n.graceEnd = n.window + n.length) ∧
    ∃ s : State, s.retention.powered = true ∧ s.calendar.cycle = .grace night ∧
      s.calendar.t + 1 = 900 * night.graceEnd ∧ s.burst.held = [] :=
  ⟨⟨running (900 * 9712 - 1) (.opened night), by decide⟩,
    ⟨running (900 * 9712 - 1) (.opened { night with graceEnd := 9712 }), { night with graceEnd := 9712 },
      by decide⟩,
    running (900 * 9720 - 1) (.grace night), by decide⟩

/-- The settlement end of night 100 with an expired suspension. -/
def settled : State :=
  { running (900 * 9720) (.settling night) with suspensions := [(0, ⟨100, .b⟩), (1, ⟨101, .c⟩)] }

theorem canonical_settled : Canonical settled := by
  unfold Canonical ConfigSet.Canonical
  exact ⟨by decide, nofun, nofun, by decide, by decide, by decide, by decide, by decide, by decide,
    by decide, by decide, by decide, by decide, by decide⟩

/-- With the calendar VALID, the entry due or not, and INVALID; with and without a pending set. -/
theorem witness_SettlementEndTakesItsSteps :
    ∀ x ∈ [(true, false), (true, true), (false, false)],
      ∀ pending ∈ [none, some (⟨set1, .b⟩ : PendingSet)], ∃ s : State,
        Canonical s ∧ s.retention.powered = true ∧ s.calendar.cycle = .settling night ∧
        s.settlement = none ∧ s.calendar.valid = x.1 ∧ s.calendar.entryDue = x.2 ∧
        s.config.pending = pending ∧ nightInRange s.config.active.night = true ∧
        nightInRange set1.night = true := by
  intro x _ pending hp
  obtain ⟨h1, -, h3⟩ := canonical_settled
  refine ⟨{ settled with
      calendar := { settled.calendar with valid := x.1, entryDue := x.2 }
      config := { settled.config with pending := pending } }, ⟨h1, fun pd h => ?_, h3⟩, rfl, rfl, rfl, rfl,
    rfl, rfl, show nightInRange set1.night = true by decide, by decide⟩
  simp only [List.mem_cons, List.not_mem_nil, or_false] at hp
  rcases hp with rfl | rfl
  · cases h
  · cases h
    exact ⟨by decide, by decide⟩

/-- A run whose pass is not taken, with 40 and 45 around slot 3 of meter 0. -/
def infilling : State :=
  { settlingNow with
    settlement := some { run1 with infilled := false }
    intake := { settlingNow.intake with store := [(2, .filled 40), (4, .filled 45)] } }

theorem witness_InfillPassEstimates :
    ∃ (s : State) (run : Run), s.retention.powered = true ∧ s.settlement = some run ∧
      run.infilled = false ∧ (∃ x ∈ s.config.active.meters, x.1 = 0 ∧ x.2.infill = true) ∧
      3 + 2 ≤ run.length ∧ slotAt s.intake.store 0 3 = .empty ∧
      slotAt s.intake.store 0 2 = .filled 40 ∧ slotAt s.intake.store 0 4 = .filled 45 ∧
      slotAt s.intake.store 0 1 = .empty ∧ ∀ a, slotAt s.intake.store 0 0 ≠ .filled a :=
  ⟨infilling, { run1 with infilled := false }, by decide, rfl, by decide, by decide, by decide,
    by decide, by decide, by decide, by decide, fun a => by
      have h : slotAt infilling.intake.store 0 0 = .empty := by decide
      rw [h]; nofun⟩

/-- A settling night whose meter 0 filled slots 1 to 4 with 1000 and whose pressure point read 300 there. -/
def filledHour : State :=
  { settlingNow with intake := { settlingNow.intake with
    store := [(1, .filled 1000), (2, .filled 1000), (3, .filled 1000), (4, .filled 1000),
      (25, .filled 300), (26, .filled 300), (27, .filled 300), (28, .filled 300)] } }

/-- Whether an outcome is assessed. -/
def assessed (x : Settled) : Bool :=
  match x.outcome with
  | .inl _ => false
  | .inr _ => true

/-- A district that has settled the night, and one that has settled the night before it, with nothing filed and with
an hour filled; a ring of 31 records and a full one. -/
theorem witness_HandOverAndCompletion :
    (∀ n ∈ [99, 100], ∃ s : State, s.retention.powered = true ∧ s.settlement = some run1 ∧
      run1.infilled = true ∧ run1.remaining = [0] ∧
      tget s.config.active.districts 0 = some district ∧
      tget s.districts 0 = some { quiet with lastSettled := some n } ∧
      assessed (settleDistrict s { run1 with remaining := [] } district) = false) ∧
    (∀ k ∈ [31, 32], ∃ s : State, s.retention.powered = true ∧ s.settlement = some run1 ∧
      tget s.config.active.districts 0 = some district ∧ tget s.districts 0 = some quiet ∧
      quiet.lastSettled = some 99 ∧ ((tget s.history 0).getD []).length = k ∧
      assessed (settleDistrict s { run1 with remaining := [] } district) = true) ∧
    ∃ (s : State) (run : Run), s.retention.powered = true ∧ s.settlement = some run ∧
      run.infilled = true ∧ run.remaining = [] :=
  ⟨fun n _ => ⟨settlingNow.setDistricts [(0, { quiet with lastSettled := some n })], rfl, rfl, rfl, rfl,
      rfl, rfl, by show assessed (settleDistrict settlingNow _ district) = false; decide +kernel⟩,
    fun k _ => ⟨filledHour.setHistory [(0, List.replicate k ⟨99, 7, .notAssessed, none,
      ⟨false, false, false, false, false, false, false, false⟩, 0, none, none, 0, none, none, none, none,
      .quiet⟩)], rfl, rfl, rfl, rfl, rfl, List.length_replicate, by
        show assessed (settleDistrict filledHour _ district) = true; decide +kernel⟩,
    settlingNow.setSettlement (some { run1 with remaining := [] }), { run1 with remaining := [] }, rfl,
    rfl, rfl, rfl⟩

/-- The average pressure of an assessed outcome, 0 standing for none. -/
def pressureOf (x : Settled) : Option Nat :=
  match x.outcome with
  | .inl _ => none
  | .inr fig => some (fig.pavg.getD 0)

/-- One complete position, so a coverage of 2 is not reached and one of 1 is. -/
theorem witness_SettledFiguresOfADistrict :
    (∃ run : Run, run.disturbed = true) ∧
    (∃ (s : State) (run : Run), run.disturbed = false ∧
      ∃ y ∈ district.terms, y.meter ∈ s.intake.suspended) ∧
    (∃ (s : State) (run : Run), run.disturbed = false ∧
      (¬ ∃ y ∈ district.terms, y.meter ∈ s.intake.suspended) ∧
      (settleDistrict s run { district with minCoverage := 2 }).positions + 1 = 2) ∧
    ∃ (s : State) (run : Run), run.disturbed = false ∧
      (¬ ∃ y ∈ district.terms, y.meter ∈ s.intake.suspended) ∧ district.minCoverage = 1 ∧
      (settleDistrict s run district).positions = 1 ∧
      pressureOf (settleDistrict s run district) = some 300 ∧
      pressureOf (settleDistrict s run { district with pressurePoint := none }) = some 0 :=
  ⟨⟨{ run1 with disturbed := true }, rfl⟩,
    ⟨opened.setIntake { opened.intake with suspended := [0] }, run1, by decide⟩,
    ⟨filledHour, run1, by decide +kernel⟩, filledHour, run1, by decide +kernel⟩

/-- An IN meter of weight 10 L and an OUT meter of weight 2 L. -/
def inAndOut : Tbl MeterEntry := [(0, ⟨500, .flow 3, 400, true⟩), (2, ⟨502, .flow 1, 400, true⟩)]

/-- Four slots of each, slot 3 of the OUT meter ESTIMATED: every net flow is 10 * 30 - 2 * 40 = 220. -/
def inAndOutSlots : Tbl Slot :=
  [(0, .filled 30), (1, .filled 30), (2, .filled 30), (3, .filled 30), (48, .filled 40),
    (49, .filled 40), (50, .filled 40), (51, .estimated 40)]

/-- Sections 4.4 and 6.2: settlement uses an estimate, the burst watch does not. -/
theorem test_hourSum :
    hourSum availableValue inAndOut inAndOutSlots [⟨0, .inlet⟩, ⟨2, .outlet⟩] 0 = some 880 ∧
      hourSum filledValue inAndOut inAndOutSlots [⟨0, .inlet⟩, ⟨2, .outlet⟩] 0 = none := by
  decide +kernel

theorem witness_HourSumsOfNetFlows :
    (∀ x ∈ [((0 : Nat), (300 : Nat)), (2, 80)], ∃ e code value litres, tget inAndOut x.1 = some e ∧
      e.kind = .flow code ∧ ([1, 2, 5, 10, 20, 50, 100] : List Nat)[code]? = some litres ∧
      availableValue (slotAt inAndOutSlots x.1 0) = some value ∧ x.2 = value * litres) ∧
    filledValue (slotAt inAndOutSlots 2 3) = none ∧
    (∀ k ∈ [0, 1, 2, 3],
      netFlow availableValue inAndOut inAndOutSlots [⟨0, .inlet⟩, ⟨2, .outlet⟩] k = some 220) ∧
    netFlow filledValue inAndOut inAndOutSlots [⟨0, .inlet⟩, ⟨2, .outlet⟩] (0 + 3) = none ∧
    ∀ m k value, availableValue (slotAt [] m k) = some value → value ≤ 65534 := by
  refine ⟨?_, by decide +kernel, by decide +kernel, by decide +kernel, fun m k v h => ?_⟩
  · simp only [List.mem_cons, List.not_mem_nil, or_false, forall_eq_or_imp, forall_eq]
    exact ⟨⟨_, 3, 30, 10, rfl, rfl, rfl, by decide +kernel, rfl⟩,
      _, 1, 40, 2, rfl, rfl, rfl, by decide +kernel, rfl⟩
  · simp [slotAt, tget, availableValue] at h

/-- The rounding example of R93, and the operands of its largest value. -/
theorem witness_LegitimateNightUse :
    (∃ e : DistrictEntry, e.properties * e.perProperty + e.nonHousehold = 44305) ∧
    ∃ e : DistrictEntry, e.properties = 65535 ∧ e.perProperty = 255 ∧ e.nonHousehold = 1000000 :=
  ⟨⟨{ district with properties := 8861, perProperty := 5, nonHousehold := 0 }, rfl⟩,
    { district with properties := 65535, perProperty := 255, nonHousehold := 1000000 }, rfl, rfl, rfl⟩

theorem witness_RatioRootAndFactor :
    ∃ (s : State) (e : DistrictEntry) (least : Nat × Int), e.refPressure = 300 ∧
      pressureAverage e s.intake.store s.intake.suspended least.1 = some 300 :=
  ⟨filledHour, district, (1, 40000), rfl, by decide +kernel⟩

/-- The least and the largest ratio of the table's columns, and the largest leakage. -/
theorem witness_NormalisationBound :
    ∃ l c r : Nat, l = 209708800 ∧ c = 4 ∧ 32768 ≤ r ∧ r = 131072 :=
  ⟨_, _, 131072, rfl, rfl, by decide, rfl⟩

/-- Leakages 63 and 64 above a baseline with s = 6; LEARNING without a baseline; QUIET at and above its threshold of
900. -/
theorem witness_BaselineUpdate :
    (∃ l b : Nat, ((l : Int) - (b : Int)).natAbs + 1 = 2 ^ 6) ∧
    (∃ r : DistrictRuntime, r.alarm = .learning ∧ r.baseline = none) ∧
    (∃ r : DistrictRuntime, r.alarm = .learning ∧ r.baseline = some 9000) ∧
    ∀ x ∈ ([(9900, false), (9901, true)] : List (Nat × Bool)), ∃ r : DistrictRuntime,
      r.alarm = .quiet ∧ r.baseline = some 9000 ∧
      (decide ((x.1 : Int) - (9000 : Nat) > ((max district.absThreshold
        (9000 * district.relThreshold / 100) : Nat) : Int)) = x.2) :=
  ⟨⟨9063, 9000, by decide⟩, ⟨⟨.learning, none, 0, 0, 0, none, none, true⟩, rfl, rfl⟩,
    ⟨⟨.learning, some 9000, 1, 0, 0, none, none, true⟩, rfl, rfl⟩,
    fun x hx => ⟨quiet, rfl, rfl, by revert x; decide⟩⟩

/-- The nights before and at the limits M = 2 and 3, Learn = 2 and Clear = 3 of a district. -/
theorem witness_JudgementOfANight :
    (∀ c ∈ [0, 1], ∃ r : DistrictRuntime, r.alarm = .learning ∧ r.learnCount = c) ∧
    district.learnNights = 2 ∧
    (∃ r : DistrictRuntime, r.alarm = .quiet ∧ r.baseline = some 9000) ∧
    (∀ c ∈ [1, 2], ∃ r : DistrictRuntime, r.alarm = .watch ∧ r.baseline = some 9000 ∧
      r.highCount = c) ∧
    (∀ c ∈ [0, 1], ∃ r : DistrictRuntime, r.alarm = .leak ∧ r.baseline = some 9000 ∧
      r.normalCount = c ∧ r.record = some ⟨98, .nights⟩) ∧
    (∀ c ∈ [0, 1], ∃ r : DistrictRuntime, r.alarm = .standing ∧ r.baseline = some 9000 ∧
      r.normalCount = c ∧ r.record = some ⟨98, .nights⟩) ∧
    district.clearNights = 2 ∧ district.confirmNights = 3 ∧
    (∃ e : DistrictEntry, e.confirmNights = 1) :=
  ⟨fun c _ => ⟨⟨.learning, none, c, 0, 0, none, none, true⟩, rfl, rfl⟩, by decide,
    ⟨quiet, rfl, rfl⟩,
    fun c _ => ⟨{ quiet with alarm := .watch, highCount := c }, rfl, rfl, rfl⟩,
    fun c _ => ⟨{ leaking with normalCount := c }, rfl, rfl, rfl, rfl⟩,
    fun c _ => ⟨{ leaking with alarm := .standing, normalCount := c }, rfl, rfl, rfl, rfl⟩, by decide,
    by decide, { district with confirmNights := 1 }, rfl⟩

theorem witness_LeakAckByState :
    (∃ s f, Taking s .c f 0x10 [63, 142]) ∧
    (∃ s f, Taking s .c f 0x10 [63, 142, 173] ∧ u16 142 173 = 36524 + 1) ∧
    (∃ s f, Taking s .c f 0x10 [64, 142, 172]) ∧
    (∃ s f, Taking s .c f 0x10 [63, 142, 172] ∧ u16 142 172 = 36524 ∧
      tget s.config.active.districts 63 = none) ∧
    (∀ x ∈ ([.leak, .standing] : List AlarmState), ∀ n ∈ ([98, 99] : List Octet), ∃ s f r,
      Taking s .c f 0x10 [0, 0, n] ∧ tget s.config.active.districts 0 = some district ∧
      tget s.districts 0 = some r ∧ r.alarm = x ∧ r.record = some ⟨98, .nights⟩) ∧
    ∃ s f r, Taking s .c f 0x10 [0, 0, 98] ∧ tget s.config.active.districts 0 = some district ∧
      tget s.districts 0 = some r ∧ r.alarm = .quiet ∧ r.record = none :=
  ⟨⟨_, _, taking opened _ _ _ rfl⟩, ⟨_, _, taking opened _ _ _ rfl, by decide⟩,
    ⟨_, _, taking opened _ _ _ rfl⟩, ⟨_, _, taking opened _ _ _ rfl, by decide, rfl⟩,
    fun x _ n _ => ⟨_, _, { leaking with alarm := x },
      taking (opened.setDistricts [(0, { leaking with alarm := x })]) _ _ _ rfl, rfl, rfl, rfl, rfl⟩,
    _, _, quiet, taking opened _ _ _ rfl, rfl, rfl, rfl, rfl⟩

/-- A record of night 99, NORMAL with a normalised leakage of 9100, and one of night 100, NOT_ASSESSED. -/
def record99 : NightRecord :=
  ⟨99, 7, .normal, none, ⟨false, false, false, false, false, false, false, false⟩, 5, some 0,
    some 10188, 1088, some 9100, some 300, some 9100, some 9000, .quiet⟩

def record100 : NightRecord :=
  ⟨100, 7, .notAssessed, some .suspended, ⟨false, false, false, false, false, false, false, false⟩,
    5, none, none, 1088, none, none, none, some 9000, .quiet⟩

/-- The open night with those two records. -/
def remembering : State := opened.setHistory [(0, [record99, record100])]

theorem remembering_ring (p : Port) (k : Octet) (payload : List Octet) :
    ringOf (ready remembering p k payload).history 0 = [] ++ record99 :: [record100] := rfl

theorem witness_RebaseAndRelearn :
    (∃ s f, Taking s .b f 0x11 [0] ∧ tget s.config.active.districts 0 = some district ∧
      tget s.districts 0 = some quiet ∧ ∀ x ∈ ringOf s.history 0, x.result = .notAssessed) ∧
    (∃ s f older x newer, Taking s .b f 0x11 [0] ∧
      tget s.config.active.districts 0 = some district ∧ tget s.districts 0 = some quiet ∧
      ringOf s.history 0 = older ++ x :: newer ∧ x.result ≠ .notAssessed ∧ x.lnorm = some 9100 ∧
      newer.length = 1 ∧ ∀ y ∈ newer, y.result = .notAssessed) ∧
    (∃ s f, Taking s .b f 0x12 [0] ∧ tget s.config.active.districts 0 = some district ∧
      tget s.districts 0 = some quiet) ∧
    (∃ s f, ReadyToTake s .a f [] ∧ requestOf (.dmaStatus .a) = some (.a, 0x13) ∧
      f.kind.toNat = 0x13 ∧ Port.a ∈ roleTable 0x13 ∧ f.payload = [64]) ∧
    (∃ s f, ReadyToTake s .b f [] ∧ requestOf (.rebase .b) = some (.b, 0x11) ∧
      f.kind.toNat = 0x11 ∧ Port.b ∈ roleTable 0x11 ∧ f.payload = [63] ∧
      tget s.config.active.districts 63 = none) ∧
    ∃ s f, ReadyToTake s .b f [] ∧ requestOf (.relearn .b) = some (.b, 0x12) ∧
      f.kind.toNat = 0x12 ∧ Port.b ∈ roleTable 0x12 ∧ f.payload.length ≠ 1 :=
  ⟨⟨_, _, taking opened _ _ _ rfl, rfl, rfl, fun x hx =>
      absurd (show x ∈ ([] : List NightRecord) from hx) List.not_mem_nil⟩,
    ⟨_, _, [], record99, [record100], taking remembering _ _ _ rfl, rfl, rfl,
      remembering_ring .b 0x11 [0], by decide, rfl, rfl, by decide⟩,
    ⟨_, _, taking opened _ _ _ rfl, rfl, rfl⟩,
    ⟨_, _, readyToTake opened .a 0x13 [64] rfl, rfl, rfl, by decide, rfl⟩,
    ⟨_, _, readyToTake opened .b 0x11 [63] rfl, rfl, rfl, by decide, rfl, rfl⟩,
    _, _, readyToTake opened .b 0x12 [] rfl, rfl, rfl, by decide, by decide⟩

theorem witness_BurstEntryRaisesLeak :
    ∀ x ∈ ([.quiet, .watch, .standing, .leak, .learning] : List AlarmState), ∃ (s : State) (r : _),
      s.retention.powered = true ∧ tget s.burst.held 0 = some 100 ∧ tget s.districts 0 = some r ∧
      r.alarm = x :=
  fun x _ => ⟨(opened.setBurst ⟨[], [0], [(0, 100)]⟩).setDistricts [(0, { quiet with alarm := x })],
    { quiet with alarm := x }, rfl, rfl, rfl, rfl⟩

/-- Slots 0 to 4 of meter 0 filled, so positions 0 and 1 are complete; B + LNU + Tb = 12088, and each hour sums to
12080 or 12120. -/
def offered (v : Nat) : State :=
  opened.setIntake { opened.intake with
    store := [(0, .filled v), (1, .filled v), (2, .filled v), (3, .filled v), (4, .filled v)] }

theorem witness_OffersMarkAndFindBursts :
    (∃ s : State, tget s.districts 0 = some quiet ∧ s.calendar.disturbed = true) ∧
    (∃ s : State, tget s.districts 0 = some quiet ∧ 0 ∈ s.burst.raised) ∧
    (∀ v ∈ [302, 303], ∃ s : State, tget s.districts 0 = some quiet ∧ district.burstThreshold = 2000 ∧
      quiet.alarm = .quiet ∧ quiet.baseline = some 9000 ∧ 0 ∉ s.burst.raised ∧
      (¬ ∃ x ∈ district.terms, x.meter ∈ s.intake.suspended) ∧ s.calendar.disturbed = false ∧
      hourSum filledValue s.config.active.meters s.intake.store district.terms 0 =
        some (40 * v : Nat) ∧
      ((40 * v : Nat) : Int) - ((9000 : Nat) + (lnu district : Int)) ≠ district.burstThreshold) ∧
    (∃ s : State, (∀ e, (5, e) ∈ s.config.active.districts → ∀ x ∈ e.terms, x.meter ≠ 0)) ∧
    ∃ s : State, s.config.active.Canonical ∧ (0, district) ∈ s.config.active.districts ∧
      ∃ x ∈ district.terms, x.meter = 0 := by
  refine ⟨⟨{ opened with calendar := { opened.calendar with disturbed := true } }, rfl, rfl⟩,
    ⟨opened.setBurst ⟨[], [0], []⟩, rfl, by decide⟩, ?_,
    ⟨opened, fun e h => by simp [opened, running, set1] at h⟩,
    opened, ⟨by decide, by decide⟩, by decide, by decide⟩
  simp only [List.mem_cons, List.not_mem_nil, or_false, forall_eq_or_imp, forall_eq]
  exact ⟨⟨offered 302, by decide +kernel⟩, offered 303, by decide +kernel⟩

/-- 16 entries for meters of the set other than 0. -/
def fullList : Tbl Suspension := (List.range 16).map (fun i => (i + 1, ⟨130, .b⟩))

theorem witness_SuspendListsTheMeter :
    (∃ s f, Taking s .c f 0x0D [1, 244, 0]) ∧
    (∃ s f, Taking s .c f 0x0D [1, 244, 0, 130] ∧ s.calendar.valid = false) ∧
    (∀ u ∈ ([99, 131] : List Octet), ∃ s f, Taking s .c f 0x0D [1, 244, 0, u] ∧
      s.calendar.valid = true ∧ s.calendar.cycle = .opened night ∧
      ¬ (100 ≤ u16 0 u ∧ u16 0 u ≤ 100 + 30)) ∧
    (∃ s f, Taking s .c f 0x0D [0, 1, 0, 130] ∧ s.calendar.valid = true ∧
      s.calendar.cycle = .opened night ∧ u16 0 130 = 100 + 30 ∧
      meterAt s.config.active.meters (u16 0 1) = none) ∧
    (∃ s f, Taking s .c f 0x0D [1, 244, 0, 100] ∧ s.calendar.cycle = .opened night ∧
      meterAt s.config.active.meters (u16 1 244) = some (0, ⟨500, .flow 3, 400, true⟩) ∧
      tget s.suspensions 0 = none ∧ s.suspensions.length = 16) ∧
    (∃ s f, Taking s .c f 0x0D [1, 244, 0, 100] ∧ s.calendar.cycle = .opened night ∧
      meterAt s.config.active.meters (u16 1 244) = some (0, ⟨500, .flow 3, 400, true⟩) ∧
      tget s.suspensions 0 = none ∧ s.suspensions.length = 15) ∧
    ∃ s f, Taking s .c f 0x0D [1, 244, 0, 101] ∧ s.calendar.cycle = .settling night ∧
      s.calendar.valid = true ∧ u16 0 101 = night.date + 1 ∧
      meterAt s.config.active.meters (u16 1 244) = some (0, ⟨500, .flow 3, 400, true⟩) := by
  refine ⟨⟨_, _, taking opened _ _ _ rfl⟩, ⟨_, _, taking State.reset _ _ _ rfl, rfl⟩, ?_,
    ⟨_, _, taking opened _ _ _ rfl, rfl, rfl, by decide, by decide⟩,
    ⟨_, _, taking (opened.setSuspensions fullList) _ _ _ rfl, rfl, by decide, by decide, by decide⟩,
    ⟨_, _, taking (opened.setSuspensions (fullList.take 15)) _ _ _ rfl, rfl, by decide, by decide,
      by decide⟩,
    _, _, taking settlingNow _ _ _ rfl, rfl, rfl, by decide, by decide⟩
  simp only [List.mem_cons, List.not_mem_nil, or_false, forall_eq_or_imp, forall_eq]
  exact ⟨⟨_, _, taking opened _ _ _ rfl, rfl, rfl, by decide⟩,
    _, _, taking opened _ _ _ rfl, rfl, rfl, by decide⟩

theorem witness_ResumeRemovesTheEntry :
    (∃ s f, Taking s .c f 0x0E [1]) ∧
    (∃ s f, Taking s .c f 0x0E [0, 1] ∧ ∀ x ∈ s.config.active.meters, x.2.address ≠ u16 0 1) ∧
    (∃ s f, Taking s .c f 0x0E [1, 244] ∧
      meterAt s.config.active.meters (u16 1 244) = some (0, ⟨500, .flow 3, 400, true⟩) ∧
      tget s.suspensions 0 = none) ∧
    ∃ s f, Taking s .c f 0x0E [1, 244] ∧
      meterAt s.config.active.meters (u16 1 244) = some (0, ⟨500, .flow 3, 400, true⟩) ∧
      tget s.suspensions 0 = some ⟨100, .b⟩ :=
  ⟨⟨_, _, taking opened _ _ _ rfl⟩, ⟨_, _, taking opened _ _ _ rfl, by decide⟩,
    ⟨_, _, taking opened _ _ _ rfl, by decide, rfl⟩, _, _, taking settled _ _ _ rfl, by decide, rfl⟩

theorem witness_WholeReadsChangeNothing :
    (∃ s f, Taking s .a f 0x03 [] ∧ s.calendar.t = 3155759999) ∧
    (∃ s f, Taking s .b f 0x0F []) ∧ ∃ s f, Taking s .c f 0x1A [] :=
  ⟨⟨_, _, taking (running 3155759999 (.day none)) _ _ _ rfl, rfl⟩, ⟨_, _, taking opened _ _ _ rfl⟩,
    _, _, taking opened _ _ _ rfl⟩

theorem witness_IndexedReadsChangeNothing :
    (∃ s f, Taking s .a f 0x14 [1, 0] ∧ u16 1 0 = 256) ∧
    (∃ s f, Taking s .a f 0x14 [0, 255] ∧ tget s.config.active.meters (u16 0 255) = none) ∧
    (∃ s f, Taking s .a f 0x14 [0, 1] ∧
      tget s.config.active.meters (u16 0 1) = some ⟨501, .pressure, 2000, true⟩) ∧
    (∃ s f, Taking s .a f 0x13 [0] ∧ tget s.config.active.districts 0 = some district ∧
      tget s.districts 0 = some quiet) ∧
    (∃ s f, Taking s .a f 0x15 [63, 32]) ∧ (∃ s f, Taking s .a f 0x15 [64, 31]) ∧
    (∃ s f, Taking s .a f 0x15 [63, 31] ∧ tget s.config.active.districts 63 = none) ∧
    (∃ s f, Taking s .a f 0x15 [0, 2] ∧ (tget s.config.active.districts 0).isSome ∧
      (ringOf s.history 0).length = 2) ∧
    ∃ s f older x newer, Taking s .a f 0x15 [0, 1] ∧ (tget s.config.active.districts 0).isSome ∧
      ringOf s.history 0 = older ++ x :: newer ∧ newer.length = 1 :=
  ⟨⟨_, _, taking opened _ _ _ rfl, by decide⟩, ⟨_, _, taking opened _ _ _ rfl, by decide⟩,
    ⟨_, _, taking opened _ _ _ rfl, by decide⟩, ⟨_, _, taking opened _ _ _ rfl, rfl, rfl⟩,
    ⟨_, _, taking opened _ _ _ rfl⟩, ⟨_, _, taking opened _ _ _ rfl⟩,
    ⟨_, _, taking opened _ _ _ rfl, rfl⟩,
    ⟨_, _, taking remembering _ _ _ rfl, rfl, by rw [remembering_ring]; rfl⟩,
    _, _, [], record99, [record100], taking remembering _ _ _ rfl, rfl, remembering_ring .a 0x15 [0, 1],
    rfl⟩

theorem witness_ConfigReadAnswersAnItem :
    (∃ s f, Taking s .a f 0x0C [3, 3, 0, 0]) ∧ (∃ s f, Taking s .a f 0x0C [2, 4, 0, 0]) ∧
    (∃ s f, Taking s .a f 0x0C [2, 0, 1, 0] ∧ u16 1 0 = 256) ∧
    (∃ s f, Taking s .a f 0x0C [2, 1, 0, 64] ∧ u16 0 64 = 64) ∧
    (∃ s f h, Taking s .c f 0x0C [2, 0, 0, 255] ∧ s.config.hold = some h ∧ h.port ≠ .c) ∧
    (∃ s f, Taking s .a f 0x0C [1, 3, 0, 0] ∧ s.config.pending = none) ∧
    (∃ s f pd, Taking s .a f 0x0C [1, 1, 0, 63] ∧ s.config.pending = some pd ∧
      tget pd.config.districts 63 = none) ∧
    (∃ s f h, Taking s .b f 0x0C [2, 0, 0, 0] ∧ s.config.hold = some h ∧ h.port = .b ∧
      (tget h.staging.meters 0).isSome) ∧
    (∃ s f, Taking s .a f 0x0C [0, 0, 0, 255] ∧ tget s.config.active.meters 255 = none) ∧
    (∃ s f, Taking s .a f 0x0C [0, 1, 0, 0] ∧ tget s.config.active.districts 0 = some district) ∧
    ∃ s f, Taking s .a f 0x0C [0, 2, 0, 0] :=
  ⟨⟨_, _, taking opened _ _ _ rfl⟩, ⟨_, _, taking opened _ _ _ rfl⟩,
    ⟨_, _, taking opened _ _ _ rfl, by decide⟩, ⟨_, _, taking opened _ _ _ rfl, by decide⟩,
    ⟨_, _, hold, taking editing _ _ _ rfl, rfl, by decide⟩, ⟨_, _, taking opened _ _ _ rfl, rfl⟩,
    ⟨_, _, _, taking installing _ _ _ rfl, rfl, rfl⟩,
    ⟨_, _, _, taking editing _ _ _ rfl, rfl, rfl, rfl⟩, ⟨_, _, taking opened _ _ _ rfl, rfl⟩,
    ⟨_, _, taking opened _ _ _ rfl, rfl⟩, _, _, taking opened _ _ _ rfl⟩

/-- The queue after a LAPSED power-up, and a full queue whose entries are unread at every port. -/
theorem lawful_queue : opened.events.Lawful :=
  ⟨by decide, by decide, fun p => by cases p <;> decide⟩

def fullQueue : EventQueue :=
  ⟨(List.range 128).map (fun i => ⟨BitVec.ofNat 32 i, .backupLow, 0, 0, 0⟩), 128, ⟨0, 0, 5⟩⟩

theorem lawful_fullQueue : fullQueue.Lawful :=
  ⟨by decide +kernel, by decide +kernel, fun p => by cases p <;> decide +kernel⟩

theorem witness_EventReadMovesOneCursor :
    (∃ s f, s.events.Lawful ∧ Taking s .a f 0x16 [1, 2, 0, 0, 0, 0]) ∧
    (∃ s f, s.events.Lawful ∧ Taking s .a f 0x16 [9, 0, 0, 0, 0, 0]) ∧
    (∃ s f, s.events.Lawful ∧ Taking s .a f 0x16 [8, 1, 0, 0, 0, 2] ∧
      ¬ (2 = s.events.next ∨ ∃ e ∈ s.events.entries, e.serial = 2)) ∧
    (∃ s f, s.events.Lawful ∧ Taking s .a f 0x16 [8, 1, 0, 0, 0, 1] ∧ 1 = s.events.next) ∧
    ∃ s f, s.events.Lawful ∧ Taking s .a f 0x16 [8, 0, 0, 0, 0, 0] ∧ s.events.entries.length = 128 :=
  ⟨⟨ready opened .a _ _, _, lawful_queue, taking opened _ _ _ rfl⟩,
    ⟨ready opened .a _ _, _, lawful_queue, taking opened _ _ _ rfl⟩,
    ⟨ready opened .a _ _, _, lawful_queue, taking opened _ _ _ rfl, by decide⟩,
    ⟨ready opened .a _ _, _, lawful_queue, taking opened _ _ _ rfl, by decide⟩,
    ready (opened.setEvents fullQueue) .a _ _, _, lawful_fullQueue,
    taking (opened.setEvents fullQueue) _ _ _ rfl, by decide +kernel⟩

theorem witness_AppendKeepsTheNewest :
    (∃ s : State, s.events.Lawful ∧ s.events.entries.length < 128) ∧
    ∃ (s : State) (e : Event) (rest : List Event), s.events.Lawful ∧ s.events.entries = e :: rest ∧
      s.events.entries.length = 128 ∧ s.events.cursors.get .a = e.serial ∧
      s.events.cursors.get .c ≠ e.serial :=
  ⟨⟨opened, lawful_queue, by decide⟩,
    opened.setEvents fullQueue, _, _, lawful_fullQueue, rfl, by decide +kernel, rfl, by decide +kernel⟩

theorem witness_FlagsMasksAndTheLine :
    (∀ k ∈ ([0x17, 0x18] : List Octet), ∀ payload ∈ ([[], [31], [32]] : List (List Octet)),
      ∃ s f, Taking s .a f k payload) ∧
    ∃ s : State, s.retention.powered = true ∧ ∃ x ∈ s.districts, x.2.alarm = .leak :=
  ⟨fun k _ payload _ => ⟨_, _, taking opened .a k payload rfl⟩,
    opened.setDistricts [(0, leaking)], rfl, by decide⟩

/-- Port A with a frame being assembled, or waiting for the idle line. -/
def assembling (frame : Option RxFrame) (waitIdle : Bool) : State :=
  State.reset.setPort .a { State.reset.port .a with receiver := ⟨frame, waitIdle⟩ }

/-- The samples of a character of octet 0x01 with its stop bit 1. -/
def sound : Samples := (0xFFFF <<< 144) ||| (0xFFFF <<< 16)

/-- One of samples 4, 6, 8 of the start bit is 0; the receiver waits for the idle line or not; a stop bit of 0; and the
octet 0x01 with a stop bit of 1. -/
theorem witness_CharactersByMajority :
    (∃ (s : State) (c : Samples), s.retention.powered = true ∧
      ([4, 6, 8].filter (fun i => !sample c 0 i)).length = 1) ∧
    (∀ w ∈ [true, false], ∃ s : State, s.retention.powered = true ∧
      (s.port .a).receiver.waitIdle = w) ∧
    (∃ c : Samples, ([4, 6, 8].filter (fun i => !sample c 0 i)).length = 2 ∧
      ([7, 8, 9].filter (fun i => !sample c 9 i)).length = 2) ∧
    ∃ c : Samples, 2 ≤ ([4, 6, 8].filter (fun i => !sample c 0 i)).length ∧
      ([7, 8, 9].filter (fun i => !sample c 9 i)).length ≤ 1 ∧
      ∀ i, i < 8 → (1 : Octet).getLsbD i =
        decide (([7, 8, 9].filter (fun j => !sample c (i + 1) j)).length ≤ 1) :=
  ⟨⟨State.reset, BitVec.allOnes 160 ^^^ (1 <<< 3), rfl, by decide +kernel⟩,
    fun w _ => ⟨assembling none w, rfl, rfl⟩,
    ⟨BitVec.allOnes 160 ^^^ ((5 <<< 3) ||| (3 <<< 150)), by decide +kernel⟩, sound, by decide +kernel⟩

/-- A frame addressed to port A with an empty payload, and the same with another first CRC octet. -/
def sent : List Octet := Frame.octets ⟨0x10, 0x03, 7, []⟩

theorem witness_FrameEndJudgesTheFrame :
    (∃ s : State, s.retention.powered = true ∧ (s.port .a).receiver.frame = none) ∧
    (∀ g ∈ ([⟨[], false, true⟩, ⟨sent, true, false⟩, ⟨[0x10, 1, 2, 3], false, false⟩,
        ⟨[0x11, 1, 2, 3, 4], false, false⟩, ⟨[0x10, 1, 2, 3, 4], false, false⟩,
        ⟨sent, false, false⟩] : List RxFrame), ∃ s : State, s.retention.powered = true ∧
      (s.port .a).receiver.frame = some g ∧ (s.port .a).line.unitAddr = 0x10) ∧
    sent.drop (sent.length - 2) = be16 (crc (sent.take (sent.length - 2))).toNat ∧
    (∃ c1 c0, sent = [0x10, 0x03, 7] ++ [] ++ [c1, c0]) ∧
    ([1, 2, 3, 4] : List Octet).drop 2 ≠ be16 (crc [0x10, 1, 2]).toNat ∧
    ∀ f : Frame, ∃ s : State, s.retention.powered = true ∧ (s.port .a).queue = [f, f] ∧
      (s.port .a).receiver.frame = some ⟨sent, false, false⟩ :=
  ⟨⟨State.reset, rfl, rfl⟩, fun g _ => ⟨assembling (some g) false, rfl, rfl, rfl⟩, by decide +kernel,
    ⟨_, _, by rfl⟩, by decide +kernel,
    fun f => ⟨State.reset.setPort .a { State.reset.port .a with
      queue := [f, f], receiver := ⟨some ⟨sent, false, false⟩, false⟩ }, rfl, rfl, rfl⟩⟩

/-- A broadcast and an addressed frame; and an accepted frame split at one octet. -/
theorem witness_FramesAreReadAsSent :
    (∃ (u : Octet) (f : Frame), f.addr = u) ∧ (∃ f : Frame, f.addr = 0xFF) ∧
    ∃ (l r : List Octet) (o o' : Octet), o ≠ o' ∧ l ++ o :: r = sent ∧
      judgeFrame 0x10 ⟨sent, false, false⟩ = .accepted ⟨0x10, 0x03, 7, []⟩ :=
  ⟨⟨0x10, ⟨0x10, 0x03, 7, []⟩, rfl⟩, ⟨⟨0xFF, 0x03, 7, []⟩, rfl⟩,
    sent.take 2, sent.drop 3, 7, 8, by decide, by decide +kernel, by decide +kernel⟩

/-- The samples of a character of octet 0x30 with its stop bit 1. -/
def char30 : Samples := (0xFFFF <<< 144) ||| (0xFFFF <<< 80) ||| (0xFFFF <<< 96)

theorem witness_ResponsesEndOrAreAbandoned :
    ∃ (s : State) (tx : Transmission) (o : Octet), s.retention.powered = true ∧
      (s.port .c).transmitter = some tx ∧ tx.response.octets[tx.echoed]? = some o ∧ o = 0x30 ∧
      (startConfirmed sound = true ∧ charOctet sound ≠ o) ∧
      startConfirmed char30 = true ∧ charOctet char30 = o ∧ stopGood char30 = true :=
  ⟨sendingC, _, 0x30, rfl, rfl, by decide +kernel⟩

theorem witness_PortResetClearsThePort :
    (∃ s : State, s.retention.powered = true ∧ ∀ h, s.config.hold = some h → h.port ≠ .a) ∧
    ∃ (s : State) (h : Hold), s.retention.powered = true ∧ s.config.hold = some h ∧ h.port = .b :=
  ⟨⟨editing, rfl, fun h hh => by cases hh; decide⟩, editing, hold, rfl, rfl, rfl⟩

theorem witness_PortSettingsAreStoredThenApplied :
    (∀ x ∈ ([(3, 1, 4), (2, 0, 4), (2, 255, 4), (2, 1, 5)] : List (Octet × Octet × Octet)), ∃ s f,
      Taking s .b f 0x19 [2, x.1, x.2.1, x.2.2]) ∧
    (∃ s f, Taking s .b f 0x19 [2, 2, 254, 4] ∧ (2 : Octet).toNat = portCode .c ∧
      (4 : Octet).toNat = baudCode .b115200) ∧
    (∃ (s : State) (f : Frame), s.retention.powered = true ∧ (s.port .a).change = .ready ∧
      (s.port .a).transmitter = none ∧ (s.port .a).queue = [f] ∧
      requestOf (.timeGet .a) = some (.a, f.kind.toNat) ∧ ItemFits (.timeGet .a) f) ∧
    ∃ s : State, (s.port .a).change ≠ .ready :=
  ⟨fun x _ => ⟨_, _, taking opened _ _ _ rfl⟩, ⟨_, _, taking opened _ _ _ rfl, rfl, rfl⟩,
    ⟨ready (State.reset.setPort .a { State.reset.port .a with change := .ready }) .a 0x03 [], _, rfl, rfl,
      rfl, rfl, rfl, trivial⟩,
    opened, by decide⟩

/-- An outage, with the latch clear or set. -/
def outage (latch : Bool) (cycle : State) : State :=
  { cycle with retention := ⟨false, .intact, latch, .good⟩ }

/-- A power-up with the latch clear and the reset line, without and with a pending set, with the calendar INVALID, and
VALID one second before night 100's window start, at it, at its window end and one second before its grace end; in night 100's span with that night left out or not, and interrupted or broken off in settlement or not; what those nights' plans are; and the window start of the night of the range's last day, which is not planned. -/
theorem witness_StartUpKeepsRetainedState :
    (∀ t ∈ [900 * 9704 - 1, 900 * 9704, 900 * 9712, 900 * 9720 - 1], ∀ valid ∈ [true, false],
      ∀ pending ∈ [none, some (⟨set1, .b⟩ : PendingSet)],
      (∃ s : State, s.retention.powered = false ∧ s.retention.latch = false ∧ s.calendar.valid = valid ∧
        s.calendar.t = t ∧ s.config.active.night = ⟨8, 8, 8⟩ ∧ s.calendar.rules.enabled = false ∧
        s.config.pending = pending) ∧
      ∃ s : State, s.retention.powered = true ∧ s.retention.backup = .low ∧ s.calendar.valid = valid ∧
        s.calendar.t = t ∧ s.config.active.night = ⟨8, 8, 8⟩ ∧ s.calendar.rules.enabled = false ∧
        s.config.pending = pending) ∧
    (∀ leftOut ∈ [[], [100]], ∀ brokenOff ∈ [.nothing, .collecting 100, .settling 100], ∃ s : State, s.retention.powered = false ∧
      s.retention.latch = false ∧ s.calendar.valid = true ∧ s.calendar.t = 900 * 9704 ∧
      s.config.active.night = ⟨8, 8, 8⟩ ∧ s.calendar.rules.enabled = false ∧
      s.calendar.leftOut = leftOut ∧ s.calendar.brokenOff = brokenOff) ∧
    nightInRange ⟨8, 8, 8⟩ = true ∧
    (∀ rules : DstRules, rules.enabled = false →
      (planFor ⟨8, 8, 8⟩ rules 100).startsAt = 900 * 9704 ∧
      (planFor ⟨8, 8, 8⟩ rules 100).endsAt = 900 * 9712 ∧
      (planFor ⟨8, 8, 8⟩ rules 100).closesAt = 900 * 9720 ∧
      ∀ k, k < 100 → (planFor ⟨8, 8, 8⟩ rules k).closesAt ≤ 900 * 9704 - 1) ∧
    ∃ s : State, s.retention.powered = false ∧ s.retention.latch = false ∧ s.calendar.valid = true ∧
      nightInRange s.config.active.night = true ∧
      let p := planFor s.config.active.night s.calendar.rules 36524
      3155756400 < p.closesAt ∧ p.startsAt = s.calendar.t ∧ s.calendar.t < p.closesAt := by
  refine ⟨fun t _ valid _ pending _ => ⟨⟨outage false { running t (.day none) with
      config := ⟨set1, 5, pending, none⟩
      calendar := { (running t (.day none)).calendar with valid := valid } },
      rfl, rfl, rfl, rfl, rfl, rfl, rfl⟩,
    { running t (.day none) with
      config := ⟨set1, 5, pending, none⟩
      calendar := { (running t (.day none)).calendar with valid := valid }
      retention := ⟨true, .intact, false, .low⟩ }, rfl, rfl, rfl, rfl, rfl, rfl, rfl⟩,
    fun leftOut _ brokenOff _ => ⟨outage false { running (900 * 9704) (.day none) with
      calendar := { (running (900 * 9704) .halted).calendar with
        leftOut := leftOut, brokenOff := brokenOff } }, rfl, rfl, rfl, rfl, rfl, rfl, rfl, rfl⟩,
    by decide, fun rules h => ?_,
    outage false ({ running 3155756400 (.day none) with
      config := ⟨{ set1 with night := ⟨92, 4, 0⟩ }, 5, none, none⟩ }), rfl, rfl, rfl,
      by decide, by decide⟩
  simp only [planFor_default rules h, NightPlan.startsAt, NightPlan.endsAt, NightPlan.closesAt,
    Config.intervalSeconds]
  exact ⟨trivial, trivial, trivial, fun k _ => by omega⟩

theorem witness_SupplyCommandsAct :
    (∀ latch ∈ [true, false], ∃ s : State, s.retention.powered = false ∧ s.retention.latch = latch) ∧
    (∃ i : Instr, ∀ b, i ≠ .powerUp b) ∧
    (∃ s : State, s.retention.powered = true ∧ s.retention.backup = .good) ∧
    ∃ s : State, s.retention.powered = true ∧ s.retention.backup = .low :=
  ⟨fun latch _ => ⟨outage latch opened, rfl, rfl⟩, ⟨.mainPowerLoss, nofun⟩, ⟨opened, rfl, rfl⟩,
    opened.setRetention ⟨true, .intact, false, .low⟩, rfl, rfl⟩

theorem witness_StepKeepsEventQueueLaw :
    ∃ s t : State, s.events.Lawful ∧ s.events.entries.length = 128 ∧ step s = .next t :=
  ⟨opened.setEvents fullQueue, _, lawful_fullQueue, by decide +kernel, rfl⟩

/-- The open night with a tick waiting. -/
def ticking : State := { opened with pending := [.calendarTick] }

theorem witness_StepKeepsNightCycleLaw : ∃ s t : State, CycleLawful s ∧ step s = .next t :=
  ⟨ticking, _, lawful_opened, rfl⟩

/-- The settling night, its hand-over waiting, with one record kept. -/
def handing : State :=
  { settlingNow with pending := [.handOver], history := [(0, [record99])] }

theorem witness_StepKeepsHistoryLaw : ∃ s t : State, HistoryLawful s ∧ step s = .next t := by
  refine ⟨handing, _, fun d => ?_, rfl⟩
  by_cases hd : d = 0
  · subst hd
    exact ⟨by decide, by decide, fun x hx => ⟨quiet, 99, rfl, rfl, by
      have : x ∈ [record99] := hx
      simp only [List.mem_singleton] at this
      subst this; decide⟩⟩
  · have h : ringOf handing.history d = [] := by
      simp [ringOf, handing, tget, Ne.symm hd]
    simp [h]

theorem witness_StepKeepsAlarmLaw : ∃ s t : State, AlarmsLawful s ∧ step s = .next t := by
  have hset : set1.CountsInRange := fun d e h => by
    by_cases hd : d = 0
    · subst hd; cases h; decide
    · simp [set1, tget, Ne.symm hd] at h
  refine ⟨handing, _, ⟨hset, nofun, nofun, fun d e r he hr => ?_⟩, rfl⟩
  by_cases hd : d = 0
  · subst hd; cases he; cases hr
    exact ⟨rfl, rfl, rfl, rfl, rfl⟩
  · have : tget set1.districts d = some e := he
    simp [set1, tget, Ne.symm hd] at this

theorem lawful_set1 : set1.Lawful := by
  refine ⟨by decide, fun x hx => ?_, by decide, by decide⟩
  simp only [set1, List.mem_singleton] at hx
  subst hx
  refine ⟨fun y hy => ?_, fun m hm => ?_, by decide, by decide, by decide, by decide⟩
  · simp only [district, List.mem_singleton] at hy
    subst hy; exact ⟨_, 3, rfl, rfl⟩
  · cases hm; exact ⟨_, rfl, rfl⟩

theorem witness_StepKeepsActiveSetLaw :
    (∃ s t : State, SetsLawful s ∧ step s = .next t) ∧
    ∃ s t : State, CycleLawful s ∧ step s = .next t ∧ s.calendar.cycle = .opened night ∧
      (∀ rest, s.pending ≠ .settlementEnd :: rest) ∧ ∀ rest, s.pending ≠ .resetLine :: rest :=
  ⟨⟨handing, _, ⟨lawful_set1, nofun⟩, rfl⟩, ticking, _, lawful_opened, rfl, rfl, nofun, nofun⟩

/-- An hour filled, a baseline and a record within the bound. -/
theorem witness_StepKeepsBoundLaw :
    ∃ s t : State, BoundLawful s ∧ step s = .next t ∧ s.intake.store ≠ [] ∧ s.history ≠ [] := by
  refine ⟨{ filledHour with pending := [.handOver], history := [(0, [record99])] }, _,
    ⟨fun m k v h => ?_, by decide, nofun, by decide, by decide⟩, rfl, by decide, by decide⟩
  replace h : tget filledHour.intake.store (slotKey m k) = some (.filled v) ∨
      tget filledHour.intake.store (slotKey m k) = some (.estimated v) := by
    simpa [slotAt, Option.getD_eq_iff] using h
  have hm {x : Slot} (hx : tget filledHour.intake.store (slotKey m k) = some x) :
      x = .filled 1000 ∨ x = .filled 300 := by
    simp only [filledHour, tget] at hx
    repeat' split at hx
    all_goals simp_all
  rcases h with h | h <;> rcases hm h with h | h <;> cases h <;> decide

/-- The open night with position 0 of district 0 marked, and a reading waiting that fills slot 4. -/
def finding : State :=
  { ready (running (900 * 9709) (.opened night)) .b 0x01 (one 101 12 1 144) with
    pending := [.readings .b]
    burst := ⟨[(0, [0])], [], []⟩
    intake := { opened.intake with
      store := [(0, .filled 400), (1, .filled 400), (2, .filled 400), (3, .filled 400)] } }

/-- The open night with a burst of district 0 found and its entry held, a tick waiting; and a reading that finds one. -/
theorem witness_StepKeepsOneBurstPerNight :
    (∃ s t : State, CycleLawful s ∧ BurstLawful s ∧ step s = .next t ∧
      s.calendar.cycle = .opened night ∧ t.calendar.cycle = .opened night ∧ 0 ∈ s.burst.raised ∧
      ∀ rest, s.pending ≠ .resetLine :: rest) ∧
    ∃ s t : State, CycleLawful s ∧ BurstLawful s ∧ step s = .next t ∧
      tget s.burst.held 0 = none ∧ tget t.burst.held 0 = some 100 := by
  refine ⟨⟨{ ticking with burst := ⟨[], [0], [(0, 100)]⟩ }, _, lawful_opened,
      fun d n h => ?_, rfl, rfl, by decide +kernel, by decide, nofun⟩,
    finding, _, ⟨by decide, ⟨⟨by decide, by decide⟩, by decide⟩, fun _ => rfl, nofun⟩,
    fun d n h => (nomatch (show tget ([] : Tbl Nat) d = some n from h)), rfl, rfl, by decide +kernel⟩
  have h : tget [((0 : Nat), (100 : Nat))] d = some n := h
  by_cases hd : d = 0
  · subst hd
    cases h
    exact ⟨by decide, night, .inl rfl, rfl⟩
  · simp [tget, Ne.symm hd] at h

/-- A hand-over; a step with night 100 left out and night 101 planned; the reset line in night 100's SETTLING, the
calendar set anew meanwhile or not; a power-up with night 100 broken off in its settlement. -/
theorem witness_LastSettledNightNeverGoesBack :
    (∃ s t r r', TableFits s ∧ step s = .next t ∧ tget s.districts 0 = some r ∧
      tget t.districts 0 = some r' ∧ r.lastSettled = some 99) ∧
    (∃ s t : State, step s = .next t ∧ NightsLawful s ∧ s.retention.powered = true ∧
      100 ∈ s.calendar.leftOut ∧ (carriedPlan s.calendar.cycle).map NightPlan.date = some 101) ∧
    (∀ entryDue ∈ [true, false], ∃ s t : State, s.retention.powered = true ∧
      exec .resetLine s = .next t ∧ s.calendar.cycle = .settling night ∧
      s.calendar.entryDue = entryDue ∧ (carriedPlan t.calendar.cycle).isSome) ∧
    ∃ s t : State, s.retention.powered = false ∧ exec (.powerUp .good) s = .next t ∧
      s.calendar.brokenOff = .settling 100 ∧ (carriedPlan t.calendar.cycle).isSome := by
  let at100 (cycle : NightCycle) (entryDue : Bool) (leftOut : IdxSet) (brokenOff : BrokenOff) : State :=
    (running (900 * 9705) cycle).setCalendar { (running (900 * 9705) cycle).calendar with
      entryDue := entryDue, leftOut := leftOut, brokenOff := brokenOff }
  refine ⟨⟨handing, _, quiet, _, fun d h => ?_, rfl, rfl, rfl, rfl⟩,
    ⟨at100 (.day (some ⟨101, 0, 9800, 8, 9816⟩)) false [100] .nothing, _, rfl, fun p hp => ?_, rfl,
      by decide, rfl⟩,
    fun entryDue _ => ⟨at100 (.settling night) entryDue [] .nothing, _, rfl, rfl, rfl, rfl, ?_⟩,
    outage false (at100 .halted false [100] (.settling 100)), _, rfl, rfl, rfl, by decide +kernel⟩
  case refine_2 => cases Option.some.inj hp; decide
  case refine_3 => cases entryDue <;> decide +kernel
  by_cases hd : d = 0
  · subst hd; rfl
  · have : (tget [(0, quiet)] d).isSome := h
    simp [tget, Ne.symm hd] at this

theorem witness_StepKeepsBlockLaws :
    ∃ s t : State, step s = .next t ∧ PortsLawful s ∧ SuspensionsLawful s ∧ HoldLawful s ∧
      RunLawful s ∧ Canonical s := by
  refine ⟨{ settled with pending := [.handOver], settlement := some run1, config := editing.config }, _,
    rfl, ⟨fun p => ?_, rfl, rfl⟩, ⟨by decide, by decide, fun m x h => ?_⟩, ?_, ?_, ?_⟩
  · cases p <;> exact ⟨by decide, nofun, by decide⟩
  · by_cases h0 : m = 0
    · subst h0; rfl
    · by_cases h1 : m = 1
      · subst h1; rfl
      · have : tget [(0, ⟨100, .b⟩), (1, ⟨101, .c⟩)] m = some x := h
        simp [tget, Ne.symm h0, Ne.symm h1] at this
  · intro h hh; cases hh; decide
  · intro r hr; cases hr; exact ⟨⟨night, rfl, rfl, rfl, rfl⟩, by decide⟩
  · obtain ⟨h1, h2, h3, h4⟩ := canonical_settled
    refine ⟨h1, h2, ?_, h4⟩
    intro h hh; cases hh; exact ⟨by decide, by decide⟩

end Sys2Proof.Tests
end

section
/-!
PROOFS. The legitimate night use (section 4.5), the pressure ratio, its square root and the factor (section 4.6).
-/

namespace Sys2Proof.Machine

/-! ### The legitimate night use (R93) -/

/-- The largest sum of R93, 17711430, is reached with every field at its limit. -/
theorem lnu_le {e : DistrictEntry} (hp : e.properties ≤ 65535) (ha : e.perProperty ≤ 255)
    (hq : e.nonHousehold ≤ 1000000) : lnu e ≤ 1771143 := by
  have hpa : e.properties * e.perProperty ≤ 65535 * 255 := Nat.mul_le_mul hp ha
  unfold lnu
  omega

/-- Either kind of result carries the night use (R85, R93). -/
@[simp] theorem recordOf_lnu (night : Nat) (e : DistrictEntry) (positions : Nat)
    (conditions : Conditions) (x : Reason ⊕ Figures) (j : Judged) :
    (recordOf night e positions conditions x j).lnu = lnu e := by
  cases x with
  | inl reason => rfl
  | inr figures => rfl

theorem exceeds_iff (e : DistrictEntry) (baseline : Nat) (h : Int) :
    exceeds e baseline h = true ↔
      h - ((baseline : Int) + (lnu e : Int)) > (e.burstThreshold : Int) :=
  decide_eq_true_iff

/-- Settles O26, from the formula of R93 and the two places that use it. -/
theorem legitimateNightUse : Obligations.LegitimateNightUse := by
  intro e
  refine ⟨rfl, fun hsum => ?_, lnu_le, fun hp ha hq => ?_, fun night k c x j => ?_,
    exceeds_iff e⟩
  · rw [lnu, hsum]
  · rw [lnu, hp, ha, hq]
  · exact recordOf_lnu night e k c x j

/-! ### The integer square root (R97) -/

/-- What the bitwise search keeps: the root lies in acc .. acc + 2^bits - 1. -/
theorem isqrtFrom_eq_sqrt {bits acc x : Nat} (lower : acc * acc ≤ x)
    (upper : x < (acc + 2 ^ bits) * (acc + 2 ^ bits)) : isqrtFrom bits acc x = Nat.sqrt x := by
  induction bits generalizing acc with
  | zero => exact Nat.eq_sqrt.2 ⟨lower, upper⟩
  | succ b ih =>
    have halves : acc + 2 ^ (b + 1) = acc + 2 ^ b + 2 ^ b := by rw [pow_succ]; omega
    rw [isqrtFrom]
    split
    case isTrue fits => exact ih fits (halves ▸ upper)
    case isFalse tooLarge => exact ih lower (not_le.1 tooLarge)

theorem isqrt_eq_sqrt {x : Nat} (h : x < 2 ^ 36) : isqrt x = Nat.sqrt x :=
  isqrtFrom_eq_sqrt (Nat.zero_le x) h

theorem ratioRoot_eq_sqrt {r : Nat} (h : r ≤ 131072) : ratioRoot r = Nat.sqrt (r * 65536) :=
  isqrt_eq_sqrt (show r * 65536 < 2 ^ 36 by omega)

theorem ratioRoot_mul_self_le {r : Nat} (h : r ≤ 131072) :
    ratioRoot r * ratioRoot r ≤ r * 65536 := by
  rw [ratioRoot_eq_sqrt h]
  exact Nat.sqrt_le _

theorem lt_succ_ratioRoot_mul_self {r : Nat} (h : r ≤ 131072) :
    r * 65536 < (ratioRoot r + 1) * (ratioRoot r + 1) := by
  rw [ratioRoot_eq_sqrt h]
  exact Nat.lt_succ_sqrt _

theorem ratioRoot_mono {r r' : Nat} (h : r ≤ r') (h' : r' ≤ 131072) :
    ratioRoot r ≤ ratioRoot r' := by
  rw [ratioRoot_eq_sqrt h', ratioRoot_eq_sqrt (h.trans h')]
  exact Nat.sqrt_le_sqrt (Nat.mul_le_mul_right 65536 h)

/-- The left column of the table of R97. -/
@[simp] theorem ratioRoot_ratioMin : ratioRoot 32768 = 46340 := by decide

/-- A ratio of 1.0 has an exact root (R97). -/
@[simp] theorem ratioRoot_one : ratioRoot 65536 = 65536 := by decide

/-- The right column of the table of R97. -/
@[simp] theorem ratioRoot_ratioMax : ratioRoot 131072 = 92681 := by decide

/-! ### The pressure ratio and its clamp (R96) -/

/-- The ratio before the clamp is smallest at 1 over 2000 and largest at 2000 over 1. -/
theorem rawRatio_mem_range {refP p : Nat} (href : 1 ≤ refP) (href' : refP ≤ 2000) (hp : 1 ≤ p)
    (hp' : p ≤ 2000) : 32 ≤ rawRatio refP p ∧ rawRatio refP p ≤ 131072000 := by
  have lower : 32 * p ≤ refP * 65536 := by omega
  have upper : refP * 65536 ≤ 131072000 := by omega
  exact ⟨(Nat.le_div_iff_mul_le hp).2 lower, (Nat.div_le_self _ p).trans upper⟩

theorem clampRatio_eq_ite (r : Nat) :
    clampRatio r = if r < 32768 then 32768 else if 131072 < r then 131072 else r := by
  unfold clampRatio Config.ratioMin Config.ratioMax
  split_ifs <;> omega

theorem clampRatio_mem_range (r : Nat) : 32768 ≤ clampRatio r ∧ clampRatio r ≤ 131072 := by
  rw [clampRatio_eq_ite]
  split_ifs <;> omega

theorem clampRatio_ne_self_iff (r : Nat) : clampRatio r ≠ r ↔ r < 32768 ∨ 131072 < r := by
  rw [clampRatio_eq_ite]
  split_ifs <;> omega

/-- PRESSURE_CLAMPED of a district to which correction is applied (R96). -/
theorem figuresOf_clamped_iff {e : DistrictEntry} {store : Tbl Slot} {suspended : IdxSet}
    {least : Nat × Int} {p : Nat} (havg : pressureAverage e store suspended least.1 = some p) :
    (figuresOf e store suspended least).clamped = true ↔
      rawRatio e.refPressure p < 32768 ∨ 131072 < rawRatio e.refPressure p := by
  rw [← clampRatio_ne_self_iff]
  simp [figuresOf, clampActs, havg]

/-! ### The factor of an exponent code (R98) -/

@[simp] theorem exponentFactor_zero (r : Nat) : exponentFactor 0 r = ratioRoot r := rfl

@[simp] theorem exponentFactor_one (r : Nat) : exponentFactor 1 r = r := rfl

@[simp] theorem exponentFactor_two (r : Nat) :
    exponentFactor 2 r = r * ratioRoot r / 65536 := rfl

@[simp] theorem exponentFactor_three (r : Nat) : exponentFactor 3 r = r * r / 65536 := rfl

@[simp] theorem exponentFactor_four (r : Nat) :
    exponentFactor 4 r = r * r / 65536 * ratioRoot r / 65536 := rfl

/-- Every factor is made of the ratio and its root by products and floor divisions, which keep the order. -/
theorem exponentFactor_mono (c : Nat) {r r' : Nat} (h : r ≤ r') (h' : r' ≤ 131072) :
    exponentFactor c r ≤ exponentFactor c r' := by
  have hroot : ratioRoot r ≤ ratioRoot r' := ratioRoot_mono h h'
  unfold exponentFactor
  split
  · exact hroot
  · exact h
  all_goals gcongr

/-- The column of the smallest ratio in the table of R98. -/
theorem exponentFactor_ratioMin :
    [0, 1, 2, 3, 4].map (fun c => exponentFactor c 32768) = [46340, 32768, 23170, 16384, 11585] := by
  simp

/-- The column of the largest ratio in the table of R98. -/
theorem exponentFactor_ratioMax :
    [0, 1, 2, 3, 4].map (fun c => exponentFactor c 131072) =
      [92681, 131072, 185362, 262144, 370724] := by
  simp

/-- A night at the reference pressure is not scaled, whatever the code (R98). -/
theorem exponentFactor_unit {c : Nat} (hc : c ≤ 4) : exponentFactor c 65536 = 65536 := by
  interval_cases c <;> simp

/-- The smallest factor of the table is that of code 4 in the left column. -/
theorem le_exponentFactor_ratioMin {c : Nat} (hc : c ≤ 4) : 11585 ≤ exponentFactor c 32768 := by
  interval_cases c <;> simp

/-- The largest factor of the table is that of code 4 in the right column. -/
theorem exponentFactor_ratioMax_le {c : Nat} (hc : c ≤ 4) : exponentFactor c 131072 ≤ 370724 := by
  interval_cases c <;> simp

/-- Over the clamped range a factor stays between the smallest and the largest of the table (R98). -/
theorem exponentFactor_mem_range {c r : Nat} (hc : c ≤ 4) (hr : 32768 ≤ r) (hr' : r ≤ 131072) :
    11585 ≤ exponentFactor c r ∧ exponentFactor c r ≤ 370724 :=
  ⟨(le_exponentFactor_ratioMin hc).trans (exponentFactor_mono c hr hr'),
    (exponentFactor_mono c hr' le_rfl).trans (exponentFactor_ratioMax_le hc)⟩

/-- Settles O27: the root of R97 is the library's, and every factor of R98 keeps the order of the ratios. -/
theorem ratioRootAndFactor : Obligations.RatioRootAndFactor := by
  refine ⟨fun refP p href href' hp hp' => ?_, fun r hr hr' => ?_,
    ⟨ratioRoot_ratioMin, ratioRoot_one, ratioRoot_ratioMax⟩, exponentFactor_ratioMin,
    exponentFactor_ratioMax, fun _ => rfl⟩
  case refine_1 =>
    obtain ⟨least32, atMost⟩ := rawRatio_mem_range href href' hp hp'
    obtain ⟨clampMin, clampMax⟩ := clampRatio_mem_range (rawRatio refP p)
    refine ⟨rfl, least32, atMost, clampRatio_eq_ite _, clampMin, clampMax,
      fun s e least he havg => ?_⟩
    subst he
    exact figuresOf_clamped_iff havg
  case refine_2 =>
    refine ⟨by omega, by omega, ratioRoot_mul_self_le hr', lt_succ_ratioRoot_mul_self hr',
      exponentFactor_zero r, exponentFactor_one r, exponentFactor_two r, exponentFactor_three r,
      exponentFactor_four r, fun c hc => ?_⟩
    obtain ⟨smallest, largest⟩ := exponentFactor_mem_range hc hr hr'
    exact ⟨exponentFactor_mono c hr hr', exponentFactor_mono c hr' le_rfl, exponentFactor_unit hc,
      smallest, largest, fun r' h h' => exponentFactor_mono c h h'⟩

end Sys2Proof.Machine
end

section
/-!
PROOFS. The District State Table (chapter 5): the baseline update and the baseline that a judgement leaves, LEAK_ACK, and
the entry of a burst.
-/

namespace Sys2Proof.Machine

/-! ### The baseline update (R107) -/

section Update

variable (shift : Nat) {b l : Nat}

/-- A positive difference is rounded down. -/
theorem tdiv_excess_of_le (h : b ≤ l) :
    Int.tdiv (excess l b) (2 ^ shift : Nat) = ((l - b) / 2 ^ shift : Nat) := by
  rw [excess, ← Int.ofNat_sub h, Int.ofNat_tdiv]

/-- A negative difference is rounded up. -/
theorem tdiv_excess_of_ge (h : l ≤ b) :
    Int.tdiv (excess l b) (2 ^ shift : Nat) = -((b - l) / 2 ^ shift : Nat) := by
  rw [excess, ← Int.neg_sub, ← Int.ofNat_sub h, Int.neg_tdiv, Int.ofNat_tdiv]

theorem updateBaseline_of_le (h : b ≤ l) :
    updateBaseline shift b l = b + (l - b) / 2 ^ shift := by
  rw [updateBaseline, tdiv_excess_of_le shift h, ← Int.natCast_add, Int.toNat_natCast]

theorem updateBaseline_of_ge (h : l ≤ b) :
    updateBaseline shift b l = b - (b - l) / 2 ^ shift := by
  rw [updateBaseline, tdiv_excess_of_ge shift h, ← sub_eq_add_neg, Int.toNat_sub]

variable (b l)

theorem min_le_updateBaseline : min b l ≤ updateBaseline shift b l := by
  rcases le_total b l with h | h
  · rw [updateBaseline_of_le shift h]
    exact (min_le_left b l).trans (Nat.le_add_right _ _)
  · have part : (b - l) / 2 ^ shift ≤ b - l := Nat.div_le_self _ _
    rw [updateBaseline_of_ge shift h]
    omega

theorem updateBaseline_le_max : updateBaseline shift b l ≤ max b l := by
  rcases le_total b l with h | h
  · have part : (l - b) / 2 ^ shift ≤ l - b := Nat.div_le_self _ _
    rw [updateBaseline_of_le shift h]
    omega
  · rw [updateBaseline_of_ge shift h]
    exact (Nat.sub_le _ _).trans (le_max_left b l)

/-- The update never leaves the naturals, so the model's cut at 0 never acts. -/
theorem updateBaseline_cast : (updateBaseline shift b l : Int) =
    (b : Int) + Int.tdiv ((l : Int) - (b : Int)) (2 ^ shift) := by
  have cast : ((2 ^ shift : Nat) : Int) = 2 ^ shift := by norm_cast
  rw [← cast]
  change _ = (b : Int) + Int.tdiv (excess l b) (2 ^ shift : Nat)
  rcases le_total b l with h | h
  · rw [updateBaseline_of_le shift h, tdiv_excess_of_le shift h, Int.natCast_add]
  · have part : (b - l) / 2 ^ shift ≤ b - l := Nat.div_le_self _ _
    rw [updateBaseline_of_ge shift h, tdiv_excess_of_ge shift h]
    omega

variable {b l}

theorem updateBaseline_eq_self (small : ((l : Int) - (b : Int)).natAbs < 2 ^ shift) :
    updateBaseline shift b l = b := by
  rcases le_total b l with h | h
  · rw [updateBaseline_of_le shift h, Nat.div_eq_of_lt (by omega), Nat.add_zero]
  · rw [updateBaseline_of_ge shift h, Nat.div_eq_of_lt (by omega), Nat.sub_zero]

end Update

/-! ### The judgement by state (R105, R106) -/

section Judgement

variable {night : Nat} {e : DistrictEntry} {b l : Nat} {r : DistrictRuntime}

theorem isHigh_iff : isHigh e b l = true ↔
    (l : Int) - (b : Int) > ((max e.absThreshold (b * e.relThreshold / 100) : Nat) : Int) :=
  decide_eq_true_iff

theorem judgeAssessed_learning (h : r.alarm = .learning) :
    judgeAssessed night e l r = judgeLearning e l r := by
  simp [judgeAssessed, h]

theorem judgeAssessed_quiet (h : r.alarm = .quiet) (hb : r.baseline = some b) :
    judgeAssessed night e l r = judgeQuiet night e b l r := by
  simp [judgeAssessed, h, hb]

theorem judgeAssessed_watch (h : r.alarm = .watch) (hb : r.baseline = some b) :
    judgeAssessed night e l r = judgeWatch night e b l r := by
  simp [judgeAssessed, h, hb]

theorem judgeAssessed_leak (h : r.alarm = .leak) (hb : r.baseline = some b) :
    judgeAssessed night e l r = judgeRaised .leakCleared e b l r := by
  simp [judgeAssessed, h, hb]

theorem judgeAssessed_standing (h : r.alarm = .standing) (hb : r.baseline = some b) :
    judgeAssessed night e l r = judgeRaised .repairConfirmed e b l r := by
  simp [judgeAssessed, h, hb]

/-! ### The baseline that a judgement leaves (R107 to R110) -/

/-- The first night of a LEARNING district gives it its baseline. -/
theorem judgeLearning_baseline_of_none (hb : r.baseline = none) :
    (judgeLearning e l r).runtime.baseline = some l := by
  simp only [judgeLearning, hb]
  split <;> rfl

theorem judgeLearning_baseline_of_some (hb : r.baseline = some b) :
    (judgeLearning e l r).runtime.baseline = some (updateBaseline e.shift b l) := by
  simp only [judgeLearning, hb]
  split <;> rfl

/-- A QUIET district's baseline is held on a HIGH night and updated on a NORMAL one. -/
theorem judgeQuiet_baseline : (judgeQuiet night e b l r).runtime.baseline =
    if isHigh e b l then r.baseline else some (updateBaseline e.shift b l) := by
  unfold judgeQuiet
  split
  case isTrue high => split <;> rfl
  case isFalse normal => rfl

/-- A WATCH district's baseline is held on a HIGH night and updated on a NORMAL one. -/
theorem judgeWatch_baseline : (judgeWatch night e b l r).runtime.baseline =
    if isHigh e b l then r.baseline else some (updateBaseline e.shift b l) := by
  unfold judgeWatch
  split
  case isTrue high => split <;> rfl
  case isFalse normal => rfl

/-- While a leak is raised the baseline is held. -/
theorem judgeRaised_baseline (cleared : EventKind) :
    (judgeRaised cleared e b l r).runtime.baseline = r.baseline := by
  unfold judgeRaised
  split
  case isTrue high => rfl
  case isFalse normal => split <;> rfl

theorem judgeAssessed_baseline_unraised (h : r.alarm = .quiet ∨ r.alarm = .watch)
    (hb : r.baseline = some b) : (judgeAssessed night e l r).runtime.baseline =
      if isHigh e b l then some b else some (updateBaseline e.shift b l) := by
  rcases h with quiet | watch
  · rw [judgeAssessed_quiet quiet hb, judgeQuiet_baseline, hb]
  · rw [judgeAssessed_watch watch hb, judgeWatch_baseline, hb]

theorem judgeAssessed_baseline_raised (h : r.alarm = .leak ∨ r.alarm = .standing)
    (hb : r.baseline = some b) : (judgeAssessed night e l r).runtime.baseline = some b := by
  rcases h with leak | standing
  · rw [judgeAssessed_leak leak hb, judgeRaised_baseline, hb]
  · rw [judgeAssessed_standing standing hb, judgeRaised_baseline, hb]

end Judgement

/-- Settles O29: the two roundings of R107, then the baseline that the judgement leaves in each alarm state. -/
theorem baselineUpdate : Obligations.BaselineUpdate := by
  refine ⟨fun shift b l => ⟨updateBaseline_cast shift b l, min_le_updateBaseline shift b l,
      updateBaseline_le_max shift b l, updateBaseline_eq_self shift⟩,
    fun night e l r => ⟨fun learning hb => ?first, fun b hb =>
      ⟨fun learning => ?learning, fun unraised => ⟨fun normal => ?normal, fun high => ?high⟩,
        fun raised => judgeAssessed_baseline_raised raised hb⟩⟩⟩
  case first => rw [judgeAssessed_learning learning, judgeLearning_baseline_of_none hb]
  case learning => rw [judgeAssessed_learning learning, judgeLearning_baseline_of_some hb]
  case normal => rw [judgeAssessed_baseline_unraised unraised hb, if_neg (mt isHigh_iff.1 normal)]
  case high => rw [judgeAssessed_baseline_unraised unraised hb, if_pos (isHigh_iff.2 high)]

/-! ### A district of the active set -/

section Districts

variable {s : State} {d : Nat}

theorem districtOf_eq_none (h : tget s.config.active.districts d = none) : districtOf s d = none := by
  rw [districtOf, h]
  rfl

theorem districtOf_eq_some {e : DistrictEntry} {r : DistrictRuntime}
    (he : tget s.config.active.districts d = some e) (hr : tget s.districts d = some r) :
    districtOf s d = some (e, r) := by
  rw [districtOf, he, hr]
  rfl

end Districts

theorem layAlarm_of_none {r : DistrictRuntime} (h : r.record = none) :
    layAlarm r = [oct (alarmCode r.alarm), 0, 0, 0, 0] := by
  rw [layAlarm, h]
  rfl

theorem layAlarm_of_some {r : DistrictRuntime} {a : AlarmRecord} (h : r.record = some a) :
    layAlarm r = [oct (alarmCode r.alarm), 1] ++ be16 a.night ++ [oct (causeCode a.cause)] := by
  rw [layAlarm, h]
  rfl

/-! ### LEAK_ACK (R113) -/

section LeakAck

variable {s : State} {p : Port}

/-- Ports B and C may send LEAK_ACK; its response begins with the District State Table's answer. -/
theorem exec_leakAck_of_answer {f : Frame} {payload : List Octet} {t : State} {x : Status}
    {out : List Octet} (h : Taking s p f 0x10 payload) (hp : p ≠ .a)
    (ans : ownLeakAck p payload (s.takeFrame p) = (t, ⟨x, out⟩)) :
    exec (.leakAck p) s = .next (replied s p f t x out) := by
  obtain ⟨⟨rest, ready⟩, hkind, rfl⟩ := h
  have mine : ofKind 0x10 f = true := by simp [ofKind, hkind]
  have known : knownKind f.kind = true := by simp [knownKind, hkind]
  have role : inRole f.kind p = true := by
    cases p with
    | a => exact absurd rfl hp
    | b => rfl
    | c => simp [inRole, hkind]
  have served := serve_ready (ofKind 0x10) ownLeakAck ready mine known role
  rw [ans] at served
  exact congrArg Host.Outcome.next served

theorem ownLeakAck_format {payload : List Octet} (h : payload.length ≠ 3) :
    ownLeakAck p payload s = (s, ⟨.format, []⟩) := by
  unfold ownLeakAck
  split
  · exact absurd rfl h
  · rfl

variable {d n1 n0 : Octet}

theorem ownLeakAck_range (h : 63 < d.toNat ∨ 36524 < u16 n1 n0) :
    ownLeakAck p [d, n1, n0] s = (s, ⟨.range, []⟩) :=
  if_pos h

/-- The two fields of the request are in range. -/
def AckInRange (d n1 n0 : Octet) : Prop := d.toNat ≤ 63 ∧ u16 n1 n0 ≤ 36524

theorem AckInRange.not_refused (h : AckInRange d n1 n0) :
    ¬ (63 < d.toNat ∨ Config.lastDay < u16 n1 n0) := by
  obtain ⟨index, date⟩ := h
  unfold Config.lastDay
  omega

theorem ownLeakAck_unknownDma (h : AckInRange d n1 n0) (hs : districtOf s d.toNat = none) :
    ownLeakAck p [d, n1, n0] s = (s, ⟨.unknownDma, []⟩) := by
  simp [ownLeakAck, h.not_refused, hs, refusal]

variable {e : DistrictEntry} {r : DistrictRuntime} {a : AlarmRecord}

theorem ownLeakAck_ok (h : AckInRange d n1 n0) (hs : districtOf s d.toNat = some (e, r))
    (alarm : r.alarm = .leak) (record : r.record = some a) (named : a.night = u16 n1 n0) :
    ownLeakAck p [d, n1, n0] s =
      ((s.setDistricts (tput s.districts d.toNat { r with alarm := .standing })).append
          .leakAcked d.toNat a.night (portCode p),
        ⟨.ok, layAlarm { r with alarm := .standing }⟩) := by
  simp [ownLeakAck, h.not_refused, hs, alarm, record, named]

theorem ownLeakAck_already (h : AckInRange d n1 n0) (hs : districtOf s d.toNat = some (e, r))
    (alarm : r.alarm = .standing) (record : r.record = some a) (named : a.night = u16 n1 n0) :
    ownLeakAck p [d, n1, n0] s = (s, ⟨.already, layAlarm r⟩) := by
  simp [ownLeakAck, h.not_refused, hs, alarm, record, named]

/-- A request that names another night than the current alarm's changes nothing, acknowledged or not. -/
theorem ownLeakAck_stale (h : AckInRange d n1 n0) (hs : districtOf s d.toNat = some (e, r))
    (alarm : r.alarm = .leak ∨ r.alarm = .standing) (record : r.record = some a)
    (other : a.night ≠ u16 n1 n0) :
    ownLeakAck p [d, n1, n0] s = (s, ⟨.stale, layAlarm r⟩) := by
  rcases alarm with leak | standing
  · simp [ownLeakAck, h.not_refused, hs, leak, record, other]
  · simp [ownLeakAck, h.not_refused, hs, standing, record, other]

theorem ownLeakAck_notInLeak (h : AckInRange d n1 n0) (hs : districtOf s d.toNat = some (e, r))
    (alarm : r.alarm = .learning ∨ r.alarm = .quiet ∨ r.alarm = .watch) :
    ownLeakAck p [d, n1, n0] s = (s, ⟨.notInLeak, layAlarm r⟩) := by
  rcases alarm with learning | quiet | watch
  · simp [ownLeakAck, h.not_refused, hs, learning]
  · simp [ownLeakAck, h.not_refused, hs, quiet]
  · simp [ownLeakAck, h.not_refused, hs, watch]

end LeakAck

/-- Settles O31: the taking of the frame, then the District State Table's answer in each case. -/
theorem leakAckByState : Obligations.LeakAckByState := by
  intro s p f payload taking role
  refine ⟨fun length => exec_leakAck_of_answer taking role (ownLeakAck_format length), ?_⟩
  rintro d n1 n0 rfl
  refine ⟨fun range => exec_leakAck_of_answer taking role (ownLeakAck_range range),
    fun index date empty => exec_leakAck_of_answer taking role
      (ownLeakAck_unknownDma ⟨index, date⟩ (districtOf_eq_none empty)),
    fun e r index date he hr => ?_⟩
  have inRange : AckInRange d n1 n0 := ⟨index, date⟩
  have found : districtOf (s.takeFrame p) d.toNat = some (e, r) := districtOf_eq_some he hr
  refine ⟨fun a alarm record named => exec_leakAck_of_answer taking role ?ok,
    fun a alarm record named => exec_leakAck_of_answer taking role ?already,
    fun a alarm record other => exec_leakAck_of_answer taking role ?stale,
    fun alarm record => exec_leakAck_of_answer taking role ?notInLeak⟩
  case ok =>
    have acknowledged := layAlarm_of_some (r := { r with alarm := .standing }) record
    rw [ownLeakAck_ok inRange found alarm record named, acknowledged, State.takeFrame_districts]
  case already => rw [ownLeakAck_already inRange found alarm record named, layAlarm_of_some record, alarm]
  case stale => rw [ownLeakAck_stale inRange found alarm record other, layAlarm_of_some record]
  case notInLeak => rw [ownLeakAck_notInLeak inRange found alarm, layAlarm_of_none record]

/-! ### The entry of a burst (R112) -/

section BurstEntry

variable {s : State} {d night : Nat} {r : DistrictRuntime}

/-- A held entry is taken off the Burst Watch and entered at the District State Table. -/
theorem exec_burstEntry_of_held (powered : s.retention.powered = true)
    (held : tget s.burst.held d = some night) :
    exec (.burstEntry d) s = .next (enterBurst d night (dropHeld d s)) := by
  simp [exec, execBurstEntry, whenPowered, powered, takeHeld, held]

theorem enterBurst_of_raised {r' : DistrictRuntime} {cause : Cause} (hr : tget s.districts d = some r)
    (raised : raiseBurst night r = (r', some cause)) :
    enterBurst d night s =
      (s.setDistricts (tput s.districts d r')).append .leakRaised d night (causeCode cause) := by
  simp only [enterBurst, hr, raised]

theorem enterBurst_of_not_raised (hr : tget s.districts d = some r)
    (unraised : raiseBurst night r = (r, none)) : enterBurst d night s = s := by
  simp only [enterBurst, hr, unraised]

theorem raiseBurst_unraised (h : r.alarm = .quiet ∨ r.alarm = .watch) :
    raiseBurst night r =
      ({ r with alarm := .leak, record := some ⟨night, .burst⟩, learnCount := 0, highCount := 0,
                normalCount := 0 }, some .burst) := by
  rcases h with quiet | watch
  · simp only [raiseBurst, quiet]
  · simp only [raiseBurst, watch]

theorem raiseBurst_standing (h : r.alarm = .standing) :
    raiseBurst night r =
      ({ r with alarm := .leak, record := some ⟨night, .burstOnStanding⟩, normalCount := 0 },
        some .burstOnStanding) := by
  simp only [raiseBurst, h]

/-- A district whose leak is unacknowledged, or which has no baseline to judge by, stays as it is. -/
theorem raiseBurst_unchanged (h : r.alarm = .leak ∨ r.alarm = .learning) :
    raiseBurst night r = (r, none) := by
  rcases h with leak | learning
  · simp only [raiseBurst, leak]
  · simp only [raiseBurst, learning]

end BurstEntry

/-- Settles O33: the held entry is taken, then R112's raise by alarm state. -/
theorem burstEntryRaisesLeak : Obligations.BurstEntryRaisesLeak := by
  intro s d night r powered held hr
  have entry := exec_burstEntry_of_held powered held
  have stands : tget (dropHeld d s).districts d = some r := hr
  refine ⟨fun unraised => ?unraised, fun standing => ?standing, fun unchanged => ?unchanged⟩
  case unraised =>
    rw [entry, enterBurst_of_raised stands (raiseBurst_unraised unraised)]
    rfl
  case standing =>
    rw [entry, enterBurst_of_raised stands (raiseBurst_standing standing)]
    rfl
  case unchanged =>
    rw [entry, enterBurst_of_not_raised stands (raiseBurst_unchanged unchanged)]
    rfl

end Sys2Proof.Machine
end

section
/-!
PROOFS. The Suspension List (chapter 7): RESUME.
-/

namespace Sys2Proof.Machine

/-! ### A request answered by its owner (R160, R161) -/

/-- A frame of a known kind in the port's role is answered as the owner answers its payload. -/
theorem serve_of_answer {s t : State} {p : Port} {f : Frame} {k : Octet} {payload out : List Octet}
    {owner : Owner} {x : Status} (h : Taking s p f k payload) (known : knownKind k = true)
    (role : inRole k p = true) (answer : owner p payload (s.takeFrame p) = (t, ⟨x, out⟩)) :
    serve (ofKind k.toNat) owner p s = replied s p f t x out := by
  obtain ⟨⟨rest, ready⟩, rfl, rfl⟩ := h
  have mine : ofKind f.kind.toNat f = true := decide_eq_true rfl
  rw [serve_ready (ofKind f.kind.toNat) owner ready mine known role, answer]

/-! ### The meter an address names -/

/-- No meter is found at an address exactly when no entry of the set carries it. -/
theorem meterAt_eq_none_iff {meters : Tbl MeterEntry} {address : Nat} :
    meterAt meters address = none ↔ ∀ x ∈ meters, x.2.address ≠ address := by
  simp [meterAt, List.find?_eq_none]

/-! ### RESUME (R140) -/

section Resume

variable {s : State} {p : Port} {payload : List Octet}

/-- Ports B and C may send RESUME; its response begins with the Suspension List's answer. -/
theorem exec_resume_of_answer {f : Frame} {t : State} {x : Status} {out : List Octet}
    (h : Taking s p f 0x0E payload) (hp : p ≠ .a)
    (answer : ownResume p payload (s.takeFrame p) = (t, ⟨x, out⟩)) :
    exec (.resume p) s = .next (replied s p f t x out) := by
  have role : inRole 0x0E p = true := by
    cases p with
    | a => exact absurd rfl hp
    | b => rfl
    | c => rfl
  exact congrArg Host.Outcome.next (serve_of_answer h rfl role answer)

theorem ownResume_format (h : payload.length ≠ 2) :
    ownResume p payload s = (s, ⟨.format, []⟩) := by
  unfold ownResume
  split
  case h_1 => exact absurd rfl h
  case h_2 => rfl

variable {a1 a0 : Octet}

theorem ownResume_unknownMeter
    (absent : meterAt s.config.active.meters (u16 a1 a0) = none) :
    ownResume p [a1, a0] s = (s, ⟨.unknownMeter, []⟩) := by
  simp only [ownResume, absent, refusal]

variable {m : Nat} {e : MeterEntry}

theorem ownResume_notSuspended (found : meterAt s.config.active.meters (u16 a1 a0) = some (m, e))
    (unlisted : tget s.suspensions m = none) :
    ownResume p [a1, a0] s = (s, ⟨.notSuspended, []⟩) := by
  simp only [ownResume, found, unlisted, refusal]

/-- The entry leaves the list; the marks of the night and the Event Queue are not part of the change. -/
theorem ownResume_ok {x : Suspension}
    (found : meterAt s.config.active.meters (u16 a1 a0) = some (m, e))
    (listed : tget s.suspensions m = some x) :
    ownResume p [a1, a0] s =
      (s.setSuspensions (tdel s.suspensions m), ⟨.ok, laySuspension m e.address x⟩) := by
  simp only [ownResume, found, listed]

end Resume

/-- Settles O36: the taking of the frame, then the Suspension List's answer at each check of R140. -/
theorem resumeRemovesTheEntry : Obligations.ResumeRemovesTheEntry := by
  intro s p f payload taking role
  refine ⟨fun length => exec_resume_of_answer taking role (ownResume_format length), ?_⟩
  rintro a1 a0 rfl
  refine ⟨fun absent => ?unknownMeter, fun m e found =>
    ⟨fun unlisted => ?notSuspended, fun x listed => ?ok⟩⟩
  case unknownMeter =>
    exact exec_resume_of_answer taking role
      (ownResume_unknownMeter (meterAt_eq_none_iff.2 absent))
  case notSuspended =>
    exact exec_resume_of_answer taking role (ownResume_notSuspended found unlisted)
  case ok => exact exec_resume_of_answer taking role (ownResume_ok found listed)

end Sys2Proof.Machine
end

section
/-!
PROOFS. What one command can do: the events of the blocks behind the link ports, each one update of the model, and that
every command is one of them between two changes of the ports.
-/

namespace Sys2Proof.Machine

/-! ### The effects -/

/-- The five edits of the staging set (R37 to R42). -/
inductive StagingEdit : (ConfigSet → Except Status ConfigSet) → Prop
  | meter (payload : List Octet) : StagingEdit (editMeterSet payload)
  | meterDrop (payload : List Octet) : StagingEdit (dropMeterSet payload)
  | dma (payload : List Octet) : StagingEdit (editDmaSet payload)
  | dmaDrop (payload : List Octet) : StagingEdit (dropDmaSet payload)
  | night (payload : List Octet) : StagingEdit (editNightSet payload)

/-- The effects of commands on the blocks: the state after is one update of the state before. `i` is the command taken,
none where a second of the main domain's time base passes instead. -/
inductive Effect (i : Option Instr) (s : State) : State → Prop
  | nothing : Effect i s s
  | values (p : Port) (m : Nat) (e : MeterEntry) (x : Nat) (vs : List Nat)
      (small : ∀ v ∈ vs, v ≤ 65535) : Effect i s (takeValues p m e x vs s).1
  | setsTime (p : Port) (t : Nat) (powered : s.retention.powered = true)
      (inRange : t ≤ Config.lastSecond) : Effect i s (setTime p t s)
  | opensHold (p : Port) (role : p ≠ .a) (free : s.config.hold = none) :
      Effect i s (s.setHold (some ⟨p, stagingSource s.config, Config.holdSeconds⟩))
  | edits (h : Hold) (edit : ConfigSet → Except Status ConfigSet) (c : ConfigSet)
      (held : s.config.hold = some h) (known : StagingEdit edit) (made : edit h.staging = .ok c) :
      Effect i s (s.setHold (some { h with staging := c, timer := Config.holdSeconds }))
  | countsHold (h : Hold) (n : Nat) (held : s.config.hold = some h) (small : n ≤ 300 ∨ n ≤ h.timer) :
      Effect i s (s.setHold (some { h with timer := n }))
  | discards : Effect i s (s.setHold none)
  | dropsHold (h : Hold) (cause : Nat) (held : s.config.hold = some h) :
      Effect i s (dropStaging h cause s)
  | commits (p : Port) (h : Hold) (powered : s.retention.powered = true)
      (held : s.config.hold = some h) (passed : validate h.staging = none) :
      Effect i s (commitSet p h s)
  | suspends (m : Nat) (x : Suspension) (known : (tget s.config.active.meters m).isSome)
      (room : (tget s.suspensions m).isSome ∨ s.suspensions.length < 16) :
      Effect i s (markSuspended m (s.setSuspensions (tput s.suspensions m x)))
  | resumes (m : Nat) : Effect i s (s.setSuspensions (tdel s.suspensions m))
  | acks (p : Port) (d : Nat) (e : DistrictEntry) (r : DistrictRuntime) (a : AlarmRecord)
      (found : districtOf s d = some (e, r)) (alarm : r.alarm = .leak) (record : r.record = some a) :
      Effect i s ((s.setDistricts (tput s.districts d { r with alarm := .standing })).append
        .leakAcked d a.night (portCode p))
  | rebases (d : Nat) (e : DistrictEntry) (r : DistrictRuntime) (date b : Nat)
      (found : districtOf s d = some (e, r))
      (newest : newestAssessed (ringOf s.history d) = some (date, b)) :
      Effect i s (s.setDistricts (tput s.districts d (rebased b r)))
  | relearns (d : Nat) (e : DistrictEntry) (r : DistrictRuntime)
      (found : districtOf s d = some (e, r)) :
      Effect i s (s.setDistricts (tput s.districts d (relearning r)))
  | readsEvents (p : Port) (cursor : Serial) (m : Nat)
      (start : cursor = s.events.cursors.get p ∨ startable s.events cursor = true) :
      Effect i s (s.setEvents (takeEntries s.events p cursor m).1)
  | setsRules (rules : DstRules) (powered : s.retention.powered = true) :
      Effect i s (fireDue (replan (s.setCalendar { s.calendar with rules := rules })))
  | ticks : Effect i s (tick s)
  | fires (powered : s.retention.powered = true) : Effect i s (fireDue s)
  | infills : Effect i s (infillEvent s)
  | handsOver : Effect i s (handOverEvent s)
  | completes : Effect i s (completeEvent s)
  | settles (powered : s.retention.powered = true) (taken : i = some .settlementEnd) :
      Effect i s (settlementEndEvent s)
  | takesHeld (d : Nat) : Effect i s (takeHeld d s)
  | powersUp (b : BackupState) (off : s.retention.powered = false)
      (taken : i = some (.powerUp b)) : Effect i s (returnPower b s)
  | resets (powered : s.retention.powered = true) (taken : i = some .resetLine) :
      Effect i s (resetMain s)
  | losesPower (powered : s.retention.powered = true) : Effect i s (losePower s)
  | setsLatch (off : s.retention.powered = false) : Effect i s (setLatch s)
  | backupFalls (powered : s.retention.powered = true) : Effect i s (backupFalls s)
  | backupReturns (powered : s.retention.powered = true) : Effect i s (backupReturns s)

/-- An effect between two changes of the ports, each of which keeps the ports' limits. -/
def PortedEffect (i : Option Instr) (s t : State) : Prop :=
  ∃ (x : PerPort PortState) (u : State) (y : PerPort PortState),
    Effect i (s.setPorts x) u ∧ t = u.setPorts y ∧
    (PortsLawful s → PortsLawful (s.setPorts x)) ∧ (PortsLawful u → PortsLawful t)

variable {i : Option Instr} {s t u : State} {p : Port}

theorem Effect.ported (h : Effect i s u) : PortedEffect i s u :=
  ⟨s.ports, u, u.ports, h, rfl, id, id⟩

/-- A change of the ports alone. -/
theorem PortedEffect.ofPorts (y : PerPort PortState) (h : PortsLawful s → PortsLawful (s.setPorts y)) :
    PortedEffect i s (s.setPorts y) :=
  ⟨s.ports, s, y, .nothing, rfl, id, h⟩

/-! ### What keeps the limits of the ports -/

theorem PortsLawful.setPort (h : PortsLawful s) {x : PortState} (hx : x.Lawful)
    (hb : p ≠ .c → x.bitError = 0) : PortsLawful (s.setPort p x) := by
  obtain ⟨each, a, b⟩ := h
  refine ⟨fun q => ?_, ?_, ?_⟩
  · by_cases hq : q = p
    · subst hq; simpa using hx
    · simpa [State.port_setPort_ne _ _ _ _ hq] using each q
  · by_cases hp : p = .a
    · subst hp; simpa using hb (by decide)
    · simpa [State.port_setPort_ne _ _ _ _ (Ne.symm hp)] using a
  · by_cases hp : p = .b
    · subst hp; simpa using hb (by decide)
    · simpa [State.port_setPort_ne _ _ _ _ (Ne.symm hp)] using b

theorem PortsLawful.bitError (h : PortsLawful s) (hp : p ≠ .c) : (s.port p).bitError = 0 := by
  cases p with
  | a => exact h.2.1
  | b => exact h.2.2
  | c => exact absurd rfl hp

/-- A change of one port that keeps its limits and its count of bit errors. -/
theorem PortsLawful.modify (h : PortsLawful s) {x : PortState}
    (hx : (s.port p).Lawful → x.Lawful) (hb : x.bitError = (s.port p).bitError) :
    PortsLawful (s.setPort p x) :=
  h.setPort (hx (h.1 p)) fun hp => hb.trans (h.bitError hp)

theorem countUp_le (limit n : Nat) : countUp limit n ≤ limit := Nat.min_le_right _ _

theorem PortState.Lawful.adoptDue {x : PortState} (h : x.Lawful) : x.adoptDue.Lawful := by
  unfold PortState.adoptDue
  split
  · simp_all [PortState.Lawful, PortState.applySettings]
  · exact h

@[simp] theorem PortState.adoptDue_bitError (x : PortState) : x.adoptDue.bitError = x.bitError := by
  rw [x.adoptDue_frame]

theorem PortState.Lawful.responseDone {x : PortState} (h : x.Lawful) : x.responseDone.Lawful := by
  unfold PortState.responseDone
  split <;> exact h

@[simp] theorem PortState.responseDone_bitError (x : PortState) :
    x.responseDone.bitError = x.bitError := by
  unfold PortState.responseDone
  split <;> rfl

theorem PortState.Lawful.respond {x : PortState} (h : x.Lawful) (p : Port) (r : Response) :
    (x.respond p r).Lawful := by
  unfold PortState.respond
  split <;> simp_all [PortState.Lawful]

theorem PortState.Lawful.countDiscard {x : PortState} (h : x.Lawful) : x.countDiscard.Lawful := by
  have := countUp_le Config.countMax x.discard
  simp_all [PortState.Lawful, PortState.countDiscard, Config.countMax]

theorem PortState.Lawful.countNoise {x : PortState} (h : x.Lawful) : x.countNoise.Lawful := by
  have := countUp_le Config.countMax x.noise
  simp_all [PortState.Lawful, PortState.countNoise, Config.countMax]

theorem PortState.Lawful.endWait {x : PortState} (h : x.Lawful) : x.endWait.Lawful := by
  simpa [PortState.Lawful, PortState.endWait] using h

theorem PortState.Lawful.loseEntry {x : PortState} (h : x.Lawful) : x.loseEntry.Lawful := by
  have := countUp_le Config.lostMax x.lostCount
  have : 0 < countUp Config.lostMax x.lostCount := by simp [countUp, Config.lostMax]
  simp_all [PortState.Lawful, PortState.loseEntry, Config.lostMax]

theorem PortState.Lawful.setReceiver {x : PortState} (h : x.Lawful) (r : Receiver)
    (hr : ∀ f ∈ r.frame, f.octets.length ≤ 256) : ({ x with receiver := r }).Lawful := by
  obtain ⟨hq, -, hrest⟩ := h
  exact ⟨hq, hr, hrest⟩

theorem PortState.Lawful.lineIdle {x : PortState} (h : x.Lawful) : x.lineIdle.Lawful := by
  have free : ({ x with receiver := ⟨none, false⟩ }).Lawful := h.setReceiver _ nofun
  unfold PortState.lineIdle
  dsimp only
  split
  · exact free
  · split
    · exact free.countDiscard
    · exact free
    · unfold PortState.offer
      dsimp only
      split
      · rename_i room
        obtain ⟨-, hrest⟩ := free
        refine ⟨?_, hrest⟩
        simp only [Config.queueCapacity] at room
        simp only [List.length_append, List.length_cons, List.length_nil]
        exact room
      · exact free.countDiscard

theorem RxFrame.take_length (f : RxFrame) (o : Octet) (h : f.octets.length ≤ 256) :
    (f.take o).octets.length ≤ 256 := by
  unfold RxFrame.take
  split
  · rename_i room
    simpa [Config.frameOctets] using room
  · exact h

theorem PortState.Lawful.receive {x : PortState} (h : x.Lawful) (c : Samples) :
    (x.receive c).Lawful := by
  have hy : (if noisy c then x.countNoise else x).Lawful := by
    split
    · exact h.countNoise
    · exact h
  unfold PortState.receive
  refine hy.setReceiver _ fun f hf => ?_
  have hlen : ((if noisy c then x.countNoise else x).receiver.frame.getD .fresh).octets.length ≤ 256 := by
    cases hr : (if noisy c then x.countNoise else x).receiver.frame with
    | none => simp [RxFrame.fresh]
    | some g => exact hy.2.1 g hr
  obtain rfl := Option.some.inj hf
  split
  · exact RxFrame.take_length _ _ hlen
  · exact hlen

theorem PortsLawful.takeFrame (h : PortsLawful s) (p : Port) : PortsLawful (s.takeFrame p) := by
  refine h.modify (fun hx => ?_) (by simp)
  obtain ⟨hq, hrest⟩ := hx.adoptDue
  refine ⟨?_, hrest⟩
  simp only [PortState.adoptDue_queue] at hq
  simpa using (Nat.sub_le _ 1).trans hq

theorem PortsLawful.transmitterFree (h : PortsLawful s) (p : Port) :
    PortsLawful (s.transmitterFree p) := by
  have freed : PortsLawful (s.setPort p { s.port p with transmitter := none }) :=
    h.modify (fun hx => hx) rfl
  unfold State.transmitterFree
  simp only
  split
  · obtain ⟨each, a, b⟩ := freed
    refine ⟨fun q => ?_, ?_, ?_⟩
    · simpa [State.port] using (each q).responseDone
    · simpa [State.port] using a
    · simpa [State.port] using b
  · exact freed

theorem PortsLawful.abandonEcho (h : PortsLawful s) : PortsLawful s.abandonEcho := by
  have freed := h.transmitterFree .c
  refine freed.setPort ?_ fun hc => absurd rfl hc
  have hx := freed.1 .c
  have := countUp_le Config.countMax ((s.transmitterFree .c).port .c).bitError
  simp_all [PortState.Lawful, Config.countMax]

theorem PortState.receive_bitError (x : PortState) (c : Samples) :
    (x.receive c).bitError = x.bitError := by
  simp only [PortState.receive]
  split <;> rfl

theorem PortsLawful.echo (h : PortsLawful s) (tx : Transmission) (c : Samples) :
    PortsLawful (s.echo tx c) := by
  have noise : PortsLawful (if noisy c then s.setPort .c (s.port .c).countNoise else s) := by
    split
    · exact h.modify (fun hx => hx.countNoise) rfl
    · exact h
  unfold State.echo
  simp only
  split
  · exact noise
  · split
    · exact noise.modify (fun hx => hx) rfl
    · exact noise.abandonEcho

theorem PortsLawful.character (h : PortsLawful s) (p : Port) (idle : Bool) (c : Samples) :
    PortsLawful (s.character p idle c) := by
  have adopted : PortsLawful (s.adoptDue p) := h.modify (fun hx => hx.adoptDue) (by simp)
  have waited : PortsLawful
      (if idle then (s.adoptDue p).setPort p ((s.adoptDue p).port p).endWait else s.adoptDue p) := by
    split
    · exact adopted.modify (fun hx => hx.endWait) rfl
    · exact adopted
  unfold State.character
  dsimp only
  generalize (if idle then (s.adoptDue p).setPort p ((s.adoptDue p).port p).endWait
    else s.adoptDue p) = r at waited
  split
  · split
    · exact waited.echo _ _
    · split
      · exact waited
      · exact waited.modify (fun hx => hx.receive c) (PortState.receive_bitError _ c)
  · exact waited

theorem PortState.lineIdle_bitError (x : PortState) : x.lineIdle.bitError = x.bitError := by
  unfold PortState.lineIdle PortState.offer
  dsimp only
  split
  · rfl
  · split
    · rfl
    · rfl
    · split <;> rfl

theorem PortsLawful.endFrame (h : PortsLawful s) (p : Port) : PortsLawful (s.endFrame p) := by
  unfold State.endFrame
  split
  · exact h
  · exact h.modify (fun hx => hx.adoptDue.lineIdle) (by simp [PortState.lineIdle_bitError])

theorem PortsLawful.append (h : PortsLawful s) (kind : EventKind) (subject night : Nat) (detail : Int) :
    PortsLawful (s.append kind subject night detail) := by
  have charged (a b : Serial) {x : PortState} (hx : x.Lawful) : (chargeLost a b x).Lawful := by
    unfold chargeLost
    split
    · exact hx.loseEntry
    · exact hx
  obtain ⟨each, a, b⟩ := h
  refine ⟨fun q => ?_, by simpa using a, by simpa using b⟩
  unfold State.append State.makeRoom
  split
  · exact each q
  · split
    · exact each q
    · have hq := each q
      cases q with
      | a => exact charged _ _ hq
      | b => exact charged _ _ hq
      | c => exact charged _ _ hq

end Sys2Proof.Machine
end

section
/-!
PROOFS. Every command is one effect on the blocks between two changes of the ports.
-/

namespace Sys2Proof.Machine

variable {i : Option Instr} {s t u : State} {p : Port}

/-! ### Instants of the range (R53, R55) -/

theorem u16_le (h l : Octet) : u16 h l ≤ 65535 := by
  have := h.isLt
  have := l.isLt
  simp only [u16]
  omega

theorem words16_le (os : List Octet) : ∀ v ∈ words16 os, v ≤ 65535 := by
  induction os using words16.induct with
  | case1 h l rest ih =>
    intro v hv
    rcases List.mem_cons.1 hv with rfl | hv
    · exact u16_le h l
    · exact ih v hv
  | case2 os hos =>
    unfold words16
    simp

/-- The days of a year up to the end of a month of it. -/
theorem daysBeforeMonth_add_le (y m : Nat) (h1 : 1 ≤ m) (h12 : m ≤ 12) :
    daysBeforeMonth y m + monthLength y m ≤ if y % 4 = 0 then 366 else 365 := by
  simp only [daysBeforeMonth]
  interval_cases m <;> simp only [List.range_succ, List.range_zero, Nat.reduceSub, List.map_append,
    List.map_cons, List.map_nil, List.sum_append, List.sum_cons, List.sum_nil, List.nil_append,
    monthLength, leapYear, decide_eq_true_eq] <;> split <;> omega

/-- A date and time in range is an instant of the calendar's range (R53). -/
theorem instantOf_le {c : CivilTime} (h : civilInRange c = true) : instantOf c ≤ Config.lastSecond := by
  simp only [civilInRange, decide_eq_true_eq] at h
  obtain ⟨hy, hy', hm, hm', hd, hd', hh, hmi, hs⟩ := h
  have hmonth := daysBeforeMonth_add_le c.year c.month hm hm'
  have hday : dayOfDate c.year c.month c.day ≤ 36524 := by
    simp only [dayOfDate, daysBeforeYear]
    split at hmonth <;> omega
  simp only [instantOf, Config.daySeconds, Config.lastSecond]
  omega

/-! ### Requests -/

/-- What an owner does to the state is one effect, then a change of the ports. -/
def OwnerEffect (i : Option Instr) (owner : Owner) (p : Port) (payload : List Octet) (s : State) : Prop :=
  ∃ (u : State) (y : PerPort PortState),
    Effect i s u ∧ (owner p payload s).1 = u.setPorts y ∧ (PortsLawful u → PortsLawful (u.setPorts y))

variable {owner : Owner} {payload : List Octet}

theorem OwnerEffect.ofEffect (h : Effect i s (owner p payload s).1) : OwnerEffect i owner p payload s :=
  ⟨_, _, h, rfl, id⟩

theorem OwnerEffect.ofUnchanged (h : (owner p payload s).1 = s) : OwnerEffect i owner p payload s :=
  .ofEffect (by rw [h]; exact .nothing)

theorem powered_of_waitingFrame {f : Frame} (h : waitingFrame s p = some f) :
    s.retention.powered = true := by
  unfold waitingFrame at h
  split at h
  · assumption
  · cases h

/-- The taking of a request, its owner asked only within the roles of section 10.2. -/
theorem serve_effect (mine : Frame → Bool) (owner : Owner)
    (h : ∀ f, s.retention.powered = true → mine f = true → inRole f.kind p = true →
      OwnerEffect i owner p f.payload (s.takeFrame p)) :
    PortedEffect i s (serve mine owner p s) := by
  have taken : PortedEffect i s (s.takeFrame p) := .ofPorts _ fun hl => hl.takeFrame p
  unfold serve
  split
  · exact Effect.nothing.ported
  rename_i f hf
  split
  case isFalse => exact Effect.nothing.ported
  rename_i hm
  have served (hr : inRole f.kind p = true) := h f (powered_of_waitingFrame hf) hm hr
  have responds (r : State) (hr : PortedEffect i s r) (x : Response) :
      PortedEffect i s (r.setPort p ((r.port p).respond p x)) := by
    obtain ⟨x, u, y, he, rfl, hx, hy⟩ := hr
    exact ⟨x, u, _, he, rfl, hx, fun hl => (hy hl).modify (fun hp => hp.respond p _) rfl⟩
  have effect (hr : inRole f.kind p = true) : PortedEffect i s (owner p f.payload (s.takeFrame p)).1 := by
    obtain ⟨u, y, he, hu, hy⟩ := served hr
    exact ⟨_, u, y, he, hu, fun hl => hl.takeFrame p, by rw [hu]; exact hy⟩
  unfold serveFrame
  split
  · split
    · rename_i hb
      refine effect ?_
      simp only [broadcastActs, decide_eq_true_eq] at hb
      obtain ⟨-, rfl⟩ := hb
      rfl
    · exact taken
  · refine responds _ ?_ _
    unfold checked
    split
    · exact taken
    · split
      · exact taken
      · rename_i hr
        exact effect (by simpa using hr)

theorem ownReadings_effect : OwnerEffect i ownReadings p payload s := by
  refine .ofEffect ?_
  unfold ownReadings
  split
  · split
    · exact .nothing
    · split
      · exact .nothing
      · split
        · exact .nothing
        · split
          · exact .nothing
          · exact .values _ _ _ _ _ (words16_le _)
  · exact .nothing

theorem ownTimeSet_effect (powered : s.retention.powered = true) :
    OwnerEffect i ownTimeSet p payload s := by
  refine .ofEffect ?_
  unfold ownTimeSet
  split
  · dsimp only
    split
    · rename_i hc
      exact .setsTime _ _ powered (instantOf_le hc)
    · exact .nothing
  · exact .nothing

theorem ownEditOpen_effect (role : p ≠ .a) : OwnerEffect i ownEditOpen p payload s := by
  refine .ofEffect ?_
  unfold ownEditOpen
  split
  · split
    · rename_i free
      exact .opensHold p role free
    · rename_i h held
      split
      · exact .countsHold h _ held (.inl le_rfl)
      · exact .nothing
  · exact .nothing

theorem heldBy_eq_some {h : Hold} : heldBy s p = some h ↔ s.config.hold = some h ∧ h.port = p := by
  unfold heldBy
  split
  · rename_i x hx
    rw [hx]
    split
    · rename_i hp
      simp only [Option.some.injEq, iff_self_and]
      rintro rfl
      exact hp
    · rename_i hp
      simp only [reduceCtorEq, Option.some.injEq, false_iff, not_and]
      rintro rfl
      exact hp
  · rename_i hn
    simp [hn]

theorem editStaging_effect {edit : ConfigSet → Except Status ConfigSet} (known : StagingEdit edit) :
    Effect i s (editStaging edit p s).1 := by
  unfold editStaging
  split
  · exact .nothing
  · rename_i h held
    split
    · exact .nothing
    · rename_i c made
      exact .edits h edit c (heldBy_eq_some.1 held).1 known made

theorem ownEditCommit_effect (powered : s.retention.powered = true) :
    OwnerEffect i ownEditCommit p payload s := by
  refine .ofEffect ?_
  unfold ownEditCommit
  split
  · split
    · exact .nothing
    · rename_i h held
      have held := (heldBy_eq_some.1 held).1
      split
      · exact .countsHold h _ held (.inl le_rfl)
      · rename_i passed
        exact .commits p h powered held passed
  · exact .nothing

theorem ownEditDiscard_effect : OwnerEffect i ownEditDiscard p payload s := by
  refine .ofEffect ?_
  unfold ownEditDiscard
  split
  · split
    · exact .nothing
    · exact .discards
  · exact .nothing

theorem answerItem_state (g : Generation) (c : ConfigSet) (item : ItemName) (s s' : State) :
    (answerItem g c item s s').1 = s ∨ (answerItem g c item s s').1 = s' := by
  unfold answerItem
  split
  · exact .inl rfl
  · exact .inr rfl

theorem ownConfigRead_effect : OwnerEffect i ownConfigRead p payload s := by
  refine .ofEffect ?_
  unfold ownConfigRead
  split
  case h_2 => exact .nothing
  split
  case h_2 => exact .nothing
  split
  · exact .nothing
  split
  · rcases answerItem_state s.config.generation s.config.active _ s s with h | h <;> rw [h] <;>
      exact .nothing
  · split
    · exact .nothing
    · rename_i pd _
      rcases answerItem_state s.config.generation pd.config _ s s with h | h <;> rw [h] <;>
        exact .nothing
  · split
    · exact .nothing
    · rename_i h held
      rcases answerItem_state s.config.generation h.staging _ s (s.setHold (some h.restart)) with e | e <;>
        rw [e]
      · exact .nothing
      · exact .countsHold h _ (heldBy_eq_some.1 held).1 (.inl le_rfl)

theorem tget_isSome_of_meterAt {meters : Tbl MeterEntry} {address m : Nat} {e : MeterEntry}
    (h : meterAt meters address = some (m, e)) : (tget meters m).isSome :=
  tget_isSome_of_mem (List.mem_of_find?_eq_some h)

theorem ownSuspend_effect : OwnerEffect i ownSuspend p payload s := by
  refine .ofEffect ?_
  unfold ownSuspend
  split
  case h_2 => exact .nothing
  dsimp only
  split
  · exact .nothing
  split
  · exact .nothing
  split
  · exact .nothing
  rename_i m e found
  split
  · exact .nothing
  rename_i room
  refine .suspends m _ (tget_isSome_of_meterAt found) ?_
  simp only [Bool.and_eq_true, Bool.not_eq_true', Config.suspensionCapacity, not_and] at room
  cases hl : (tget s.suspensions m).isSome with
  | true => exact .inl rfl
  | false => exact .inr (not_le.1 fun full => room hl (decide_eq_true full))

theorem ownResume_effect : OwnerEffect i ownResume p payload s := by
  refine .ofEffect ?_
  unfold ownResume
  split
  case h_2 => exact .nothing
  split
  · exact .nothing
  split
  · exact .nothing
  · exact .resumes _

theorem ownLeakAck_effect : OwnerEffect i ownLeakAck p payload s := by
  refine .ofEffect ?_
  unfold ownLeakAck
  split
  case h_2 => exact .nothing
  dsimp only
  split
  · exact .nothing
  split
  · exact .nothing
  rename_i found
  split
  · rename_i alarm record
    split
    · exact .acks p _ _ _ _ found alarm record
    · exact .nothing
  all_goals exact .nothing

theorem ownRebase_effect : OwnerEffect i ownRebase p payload s := by
  refine .ofEffect ?_
  unfold ownRebase
  split
  case h_2 => exact .nothing
  split
  · exact .nothing
  split
  · exact .nothing
  rename_i found
  split
  · exact .nothing
  split
  · exact .nothing
  · rename_i newest
    exact .rebases _ _ _ _ _ found newest

theorem ownRelearn_effect : OwnerEffect i ownRelearn p payload s := by
  refine .ofEffect ?_
  unfold ownRelearn
  split
  case h_2 => exact .nothing
  split
  · exact .nothing
  split
  · exact .nothing
  · rename_i found
    exact .relearns _ _ _ found

theorem readEvents_effect (cursor : Serial) (m : Nat)
    (start : cursor = s.events.cursors.get p ∨ startable s.events cursor = true) :
    Effect i s (readEvents p cursor m s).1 :=
  .readsEvents p cursor m start

theorem ownEventRead_format (h : payload.length ≠ 6) : ownEventRead p payload s = (s, refusal .format) := by
  unfold ownEventRead
  split
  · exact absurd rfl h
  · rfl

theorem ownEventRead_eq (m form s3 s2 s1 s0 : Octet) :
    ownEventRead p [m, form, s3, s2, s1, s0] s =
      if 1 < form.toNat then (s, refusal .format)
      else if m.toNat = 0 ∨ 8 < m.toNat then (s, refusal .range)
      else if form.toNat = 0 then readEvents p (s.events.cursors.get p) m.toNat s
      else if startable s.events (BitVec.ofNat 32 (u32 s3 s2 s1 s0)) then
        readEvents p (BitVec.ofNat 32 (u32 s3 s2 s1 s0)) m.toNat s
      else (s, ⟨.range, be32 s.events.oldest.toNat ++ be32 s.events.next.toNat⟩) := rfl

theorem ownEventRead_effect : OwnerEffect i ownEventRead p payload s := by
  refine .ofEffect ?_
  by_cases h : payload.length = 6
  · match payload, h with
    | [m, form, s3, s2, s1, s0], _ =>
      rw [ownEventRead_eq]
      generalize BitVec.ofNat 32 (u32 s3 s2 s1 s0) = serial
      split
      · exact .nothing
      split
      · exact .nothing
      split
      · exact readEvents_effect _ _ (.inl rfl)
      split
      · rename_i start
        exact readEvents_effect _ _ (.inr start)
      · exact .nothing
  · rw [ownEventRead_format h]
    exact .nothing

theorem ownFlagClear_effect : OwnerEffect i ownFlagClear p payload s := by
  unfold OwnerEffect ownFlagClear
  split
  case h_2 => exact ⟨s, s.ports, .nothing, rfl, id⟩
  split
  · exact ⟨s, s.ports, .nothing, rfl, id⟩
  · rename_i bits _
    refine ⟨s, _, .nothing, rfl, fun hl => hl.modify (fun hx => ?_) rfl⟩
    simp only [PortState.Lawful, PortState.clearFlags] at *
    cases bits.getLsbD 1 <;> simp_all

theorem ownFlagMask_effect : OwnerEffect i ownFlagMask p payload s := by
  unfold OwnerEffect ownFlagMask
  split
  case h_2 => exact ⟨s, s.ports, .nothing, rfl, id⟩
  split
  · exact ⟨s, s.ports, .nothing, rfl, id⟩
  · exact ⟨s, _, .nothing, rfl, fun hl => hl.modify (fun hx => hx) rfl⟩

theorem ownDaylightSaving_effect (powered : s.retention.powered = true) :
    OwnerEffect i ownDaylightSaving p payload s := by
  refine .ofEffect ?_
  unfold ownDaylightSaving
  split
  case h_2 => exact .nothing
  dsimp only
  split
  · exact .nothing
  split
  · exact .nothing
  · exact .setsRules _ powered

theorem ownPortSettings_effect : OwnerEffect i ownPortSettings p payload s := by
  unfold OwnerEffect ownPortSettings
  have same : ∃ (u : State) (y : PerPort PortState),
      Effect i s u ∧ s = u.setPorts y ∧ (PortsLawful u → PortsLawful (u.setPorts y)) :=
    ⟨s, s.ports, .nothing, rfl, id⟩
  split
  case h_2 => exact same
  rename_i item port addr baud
  split
  · exact same
  split
  · exact same
  rename_i addr_in_range
  split
  · refine ⟨s, _, .nothing, rfl, fun hl => hl.modify (fun hx => ?_) (by simp [PortState.storeSettings])⟩
    have := addr.isLt
    obtain ⟨hq, hr, hn, hd, hb, hc, hlost, -, hline⟩ := hx.adoptDue
    exact ⟨hq, hr, hn, hd, hb, hc, hlost, by simp only [PortState.storeSettings]; omega, hline⟩
  · exact same

/-! ### The line, the calendar and the supply -/

/-- An event that happens only while main power is present. -/
theorem PortedEffect.whenPowered {f : State → State}
    (h : s.retention.powered = true → PortedEffect i s (f s)) :
    PortedEffect i s (whenPowered f s) := by
  unfold Machine.whenPowered
  split
  · rename_i powered
    exact h powered
  · exact Effect.nothing.ported

/-- The two states differ in their ports alone. -/
def PortsOnly (s t : State) : Prop := t = s.setPorts t.ports

theorem PortsOnly.refl (s : State) : PortsOnly s s := rfl

theorem PortsOnly.setPort (h : PortsOnly s t) (p : Port) (x : PortState) : PortsOnly s (t.setPort p x) := by
  unfold PortsOnly at *
  rw [h]
  rfl

theorem PortsOnly.transmitterFree (h : PortsOnly s t) (p : Port) : PortsOnly s (t.transmitterFree p) := by
  unfold PortsOnly at *
  unfold State.transmitterFree
  rw [h]
  dsimp only
  split <;> rfl

theorem PortsOnly.abandonEcho (h : PortsOnly s t) : PortsOnly s t.abandonEcho :=
  (h.transmitterFree .c).setPort _ _

theorem PortsOnly.echo (h : PortsOnly s t) (tx : Transmission) (c : Samples) : PortsOnly s (t.echo tx c) := by
  have noise : PortsOnly s (if noisy c then t.setPort .c (t.port .c).countNoise else t) := by
    split
    · exact h.setPort _ _
    · exact h
  unfold State.echo
  dsimp only
  split
  · exact noise
  · split
    · exact noise.setPort _ _
    · exact noise.abandonEcho

theorem State.character_portsOnly (s : State) (p : Port) (idle : Bool) (c : Samples) :
    PortsOnly s (s.character p idle c) := by
  have adopted : PortsOnly s (s.adoptDue p) := (PortsOnly.refl s).setPort _ _
  have waited : PortsOnly s
      (if idle then (s.adoptDue p).setPort p ((s.adoptDue p).port p).endWait else s.adoptDue p) := by
    split
    · exact adopted.setPort _ _
    · exact adopted
  unfold State.character
  dsimp only
  generalize (if idle then (s.adoptDue p).setPort p ((s.adoptDue p).port p).endWait
    else s.adoptDue p) = r at waited
  split
  · split
    · exact waited.echo _ _
    · split
      · exact waited
      · exact waited.setPort _ _
  · exact waited

theorem State.endFrame_portsOnly (s : State) (p : Port) : PortsOnly s (s.endFrame p) := by
  unfold State.endFrame
  split
  · exact .refl s
  · exact (PortsOnly.refl s).setPort _ _

/-- A change of the ports alone that keeps their limits. -/
theorem PortedEffect.ofPortsOnly (h : PortsOnly s t) (hl : PortsLawful s → PortsLawful t) :
    PortedEffect i s t :=
  ⟨t.ports, s.setPorts t.ports, t.ports, .nothing, h, fun hs => by rw [← h]; exact hl hs,
    fun hs => by rw [h]; exact hs⟩

theorem breakPort_effect : PortedEffect i s (breakPort p s) := by
  have broken : PortsLawful s → PortsLawful
      ((s.transmitterFree p).setPort p ((s.transmitterFree p).port p).broken) := fun hl =>
    (hl.transmitterFree p).modify
      (fun hx => by
        obtain ⟨-, -, hn, hd, hb, -, -, hs, hline⟩ := hx
        exact ⟨by simp [PortState.broken], nofun, hn, hd, hb, by simp [PortState.broken],
          by simp [PortState.broken], hs, hline⟩)
      rfl
  have only : PortsOnly s ((s.transmitterFree p).setPort p ((s.transmitterFree p).port p).broken) :=
    ((PortsOnly.refl s).transmitterFree p).setPort _ _
  unfold breakPort
  dsimp only
  generalize (s.transmitterFree p).setPort p ((s.transmitterFree p).port p).broken = r at broken only
  unfold releaseHold
  split
  · exact .ofPortsOnly only broken
  · rename_i h held
    rw [only] at held broken ⊢
    exact ⟨_, _, _, .dropsHold h 1 (heldBy_eq_some.1 held).1, rfl, broken, id⟩

theorem expireDue_effect : Effect i s (expireDue s) := by
  unfold expireDue
  split
  · exact .nothing
  · rename_i h held
    split
    · unfold expireHold
      rw [held]
      exact .dropsHold h 0 held
    · exact .nothing

theorem secondPasses_effect : Effect i s (secondPasses s) := by
  unfold secondPasses
  split
  · exact .nothing
  · rename_i h held
    split
    · unfold expireHold
      rw [held]
      exact .dropsHold h 0 held
    · exact .countsHold h _ held (.inr (Nat.sub_le _ _))

theorem reachBoundary_effect (instant : Nat) (powered : s.retention.powered = true) :
    Effect i s (reachBoundary instant s) := by
  unfold reachBoundary
  split
  · exact .fires powered
  · split
    · exact .ticks
    · exact .nothing

/-! ### Requests that read -/

theorem ownTimeGet_state (p : Port) (payload : List Octet) (s : State) :
    (ownTimeGet p payload s).1 = s := by
  unfold ownTimeGet
  split <;> rfl

theorem ownSuspendList_state (p : Port) (payload : List Octet) (s : State) :
    (ownSuspendList p payload s).1 = s := by
  unfold ownSuspendList
  split <;> rfl

theorem ownPartStatus_state (p : Port) (payload : List Octet) (s : State) :
    (ownPartStatus p payload s).1 = s := by
  unfold ownPartStatus
  split <;> rfl

theorem ownNothing_state (p : Port) (payload : List Octet) (s : State) :
    (ownNothing p payload s).1 = s := rfl

theorem ownDmaStatus_state (p : Port) (payload : List Octet) (s : State) :
    (ownDmaStatus p payload s).1 = s := by
  unfold ownDmaStatus
  split
  · split
    · rfl
    · split <;> rfl
  · rfl

theorem ownMeterStatus_state (p : Port) (payload : List Octet) (s : State) :
    (ownMeterStatus p payload s).1 = s := by
  unfold ownMeterStatus
  split
  · dsimp only
    split
    · rfl
    · split <;> rfl
  · rfl

theorem ownNightRead_state (p : Port) (payload : List Octet) (s : State) :
    (ownNightRead p payload s).1 = s := by
  unfold ownNightRead
  split
  · split
    · rfl
    · split
      · rfl
      · dsimp only
        split <;> rfl
  · rfl

/-- EDIT_OPEN is no request of port A (section 10.2). -/
theorem ne_a_of_editOpen {f : Frame} (mine : ofKind 0x04 f = true) (role : inRole f.kind p = true) :
    p ≠ .a := by
  rintro rfl
  simp only [ofKind, decide_eq_true_eq] at mine
  simp [inRole, mine] at role

/-! ### Every command -/

/-- Every command answers with one effect between two changes of the ports. -/
theorem exec_effect (c : Instr) (s : State) : ∃ t, exec c s = .next t ∧ PortedEffect (some c) s t := by
  cases c with
  | readings p => exact ⟨_, rfl, serve_effect _ _ fun _ _ _ _ => ownReadings_effect⟩
  | timeSet p => exact ⟨_, rfl, serve_effect _ _ fun _ on _ _ => ownTimeSet_effect on⟩
  | timeGet p => exact ⟨_, rfl, serve_effect _ _ fun _ _ _ _ => .ofUnchanged (ownTimeGet_state _ _ _)⟩
  | editOpen p =>
    exact ⟨_, rfl, serve_effect _ _ fun _ _ mine role => ownEditOpen_effect (ne_a_of_editOpen mine role)⟩
  | editMeter p => exact ⟨_, rfl, serve_effect _ _ fun _ _ _ _ => .ofEffect (editStaging_effect (.meter _))⟩
  | editMeterDrop p =>
    exact ⟨_, rfl, serve_effect _ _ fun _ _ _ _ => .ofEffect (editStaging_effect (.meterDrop _))⟩
  | editDma p => exact ⟨_, rfl, serve_effect _ _ fun _ _ _ _ => .ofEffect (editStaging_effect (.dma _))⟩
  | editDmaDrop p =>
    exact ⟨_, rfl, serve_effect _ _ fun _ _ _ _ => .ofEffect (editStaging_effect (.dmaDrop _))⟩
  | editNight p => exact ⟨_, rfl, serve_effect _ _ fun _ _ _ _ => .ofEffect (editStaging_effect (.night _))⟩
  | editCommit p => exact ⟨_, rfl, serve_effect _ _ fun _ on _ _ => ownEditCommit_effect on⟩
  | editDiscard p => exact ⟨_, rfl, serve_effect _ _ fun _ _ _ _ => ownEditDiscard_effect⟩
  | configRead p => exact ⟨_, rfl, serve_effect _ _ fun _ _ _ _ => ownConfigRead_effect⟩
  | suspend p => exact ⟨_, rfl, serve_effect _ _ fun _ _ _ _ => ownSuspend_effect⟩
  | resume p => exact ⟨_, rfl, serve_effect _ _ fun _ _ _ _ => ownResume_effect⟩
  | suspendList p => exact ⟨_, rfl, serve_effect _ _ fun _ _ _ _ => .ofUnchanged (ownSuspendList_state _ _ _)⟩
  | leakAck p => exact ⟨_, rfl, serve_effect _ _ fun _ _ _ _ => ownLeakAck_effect⟩
  | rebase p => exact ⟨_, rfl, serve_effect _ _ fun _ _ _ _ => ownRebase_effect⟩
  | relearn p => exact ⟨_, rfl, serve_effect _ _ fun _ _ _ _ => ownRelearn_effect⟩
  | dmaStatus p => exact ⟨_, rfl, serve_effect _ _ fun _ _ _ _ => .ofUnchanged (ownDmaStatus_state _ _ _)⟩
  | meterStatus p => exact ⟨_, rfl, serve_effect _ _ fun _ _ _ _ => .ofUnchanged (ownMeterStatus_state _ _ _)⟩
  | nightRead p => exact ⟨_, rfl, serve_effect _ _ fun _ _ _ _ => .ofUnchanged (ownNightRead_state _ _ _)⟩
  | eventRead p => exact ⟨_, rfl, serve_effect _ _ fun _ _ _ _ => ownEventRead_effect⟩
  | flagClear p => exact ⟨_, rfl, serve_effect _ _ fun _ _ _ _ => ownFlagClear_effect⟩
  | flagMask p => exact ⟨_, rfl, serve_effect _ _ fun _ _ _ _ => ownFlagMask_effect⟩
  | paramSetDaylightSaving p => exact ⟨_, rfl, serve_effect _ _ fun _ on _ _ => ownDaylightSaving_effect on⟩
  | paramSetPortSettings p => exact ⟨_, rfl, serve_effect _ _ fun _ _ _ _ => ownPortSettings_effect⟩
  | partStatus p => exact ⟨_, rfl, serve_effect _ _ fun _ _ _ _ => .ofUnchanged (ownPartStatus_state _ _ _)⟩
  | unknownKind p => exact ⟨_, rfl, serve_effect _ _ fun _ _ _ _ => .ofUnchanged (ownNothing_state _ _ _)⟩
  | frameEnd p =>
    exact ⟨_, rfl, .whenPowered fun _ => .ofPortsOnly (s.endFrame_portsOnly p) fun h =>
      h.endFrame p⟩
  | responseSent p =>
    refine ⟨_, rfl, .whenPowered fun _ => ?_⟩
    unfold finishResponse
    split
    · exact .ofPortsOnly ((PortsOnly.refl s).transmitterFree p) fun h => h.transmitterFree p
    · exact Effect.nothing.ported
  | echoMismatch =>
    refine ⟨_, rfl, .whenPowered fun _ => ?_⟩
    unfold mismatch
    split
    · exact .ofPortsOnly (PortsOnly.refl s).abandonEcho fun h => h.abandonEcho
    · exact Effect.nothing.ported
  | portReset p => exact ⟨_, rfl, .whenPowered fun _ => breakPort_effect⟩
  | portSettingsApplied p =>
    exact ⟨_, rfl, .whenPowered fun _ => .ofPortsOnly ((PortsOnly.refl s).setPort _ _) fun h =>
      h.modify (fun hx => hx.adoptDue) (by simp)⟩
  | calendarTick => exact ⟨_, rfl, Effect.ticks.ported⟩
  | calendarRangeEnd =>
    refine ⟨_, rfl, ?_⟩
    split
    · exact Effect.ticks.ported
    · exact Effect.nothing.ported
  | windowStart =>
    refine ⟨_, rfl, .whenPowered fun on => ?_⟩
    unfold reachWindowStart
    split
    · exact (reachBoundary_effect _ on).ported
    all_goals exact Effect.nothing.ported
  | windowEnd =>
    refine ⟨_, rfl, .whenPowered fun on => ?_⟩
    unfold reachWindowEnd
    split
    · exact (reachBoundary_effect _ on).ported
    all_goals exact Effect.nothing.ported
  | graceEnd =>
    refine ⟨_, rfl, .whenPowered fun on => ?_⟩
    unfold reachGraceEnd
    split
    · exact (reachBoundary_effect _ on).ported
    all_goals exact Effect.nothing.ported
  | infillPass => exact ⟨_, rfl, .whenPowered fun _ => Effect.infills.ported⟩
  | handOver => exact ⟨_, rfl, .whenPowered fun _ => Effect.handsOver.ported⟩
  | settlementComplete => exact ⟨_, rfl, .whenPowered fun _ => Effect.completes.ported⟩
  | settlementEnd => exact ⟨_, rfl, .whenPowered fun on => (Effect.settles on rfl).ported⟩
  | burstEntry d => exact ⟨_, rfl, .whenPowered fun _ => (Effect.takesHeld d).ported⟩
  | holdTimerExpiry => exact ⟨_, rfl, .whenPowered fun _ => expireDue_effect.ported⟩
  | powerUp b =>
    refine ⟨_, rfl, ?_⟩
    split
    · exact Effect.nothing.ported
    · rename_i off
      exact (Effect.powersUp b (by simpa using off) rfl).ported
  | resetLine => exact ⟨_, rfl, .whenPowered fun on => (Effect.resets on rfl).ported⟩
  | mainPowerLoss => exact ⟨_, rfl, .whenPowered fun on => (Effect.losesPower on).ported⟩
  | backupLatchSet =>
    refine ⟨_, rfl, ?_⟩
    split
    · exact Effect.nothing.ported
    · rename_i off
      exact (Effect.setsLatch (by simpa using off)).ported
  | backupGoodToLow => exact ⟨_, rfl, .whenPowered fun on => (Effect.backupFalls on).ported⟩
  | backupLowToGood => exact ⟨_, rfl, .whenPowered fun on => (Effect.backupReturns on).ported⟩
  | characterReceived p idle c =>
    exact ⟨_, rfl, .whenPowered fun _ =>
      .ofPortsOnly (s.character_portsOnly p idle c) fun h => h.character p idle c⟩

/-- One step is one effect between two changes of the ports, the command it takes gone from the queue. -/
theorem step_effect (h : step s = .next t) :
    PortedEffect s.pending.head? { s with pending := s.pending.tail } t := by
  unfold step at h
  split at h
  · rename_i empty
    obtain rfl := Host.Outcome.next.inj h
    simp only [empty, List.head?_nil, List.tail_nil]
    rw [show { s with pending := [] } = s by rw [← empty]]
    exact .whenPowered fun _ => secondPasses_effect.ported
  · rename_i c rest front
    obtain ⟨u, hu, he⟩ := exec_effect c { s with pending := rest }
    obtain rfl := Host.Outcome.next.inj (h.symm.trans hu)
    simp only [front, List.head?_cons, List.tail_cons]
    exact he

end Sys2Proof.Machine
end

section
/-!
PROOFS. What the shared operations leave alone: the filing of values, the boundaries of the night, an installation.
-/

namespace Sys2Proof.Machine

variable {s t u : State}

/-! ### The watch and the filing of values (R11 to R20, R126 to R131) -/

/-- The examination of a district changes the Burst Watch alone. -/
theorem examine_frame (p : NightPlan) (k : Nat) (s : State) (place : Nat × DistrictEntry) :
    examine p k s place = s.setBurst (examine p k s place).burst := by
  unfold examine
  split
  · rfl
  · dsimp only
    split
    · rfl
    · split <;> rfl

/-- An offer changes the Burst Watch alone. -/
theorem takeOffer_frame (p : NightPlan) (m k : Nat) (s : State) :
    takeOffer p m k s = s.setBurst (takeOffer p m k s).burst := by
  unfold takeOffer
  generalize s.config.active.districts.filter _ = l
  induction l generalizing s with
  | nil => rfl
  | cons x rest ih =>
    rw [List.foldl_cons, ih, examine_frame]
    rfl

/-- The two states agree but for the readings' own: the marks and slots of intake, the Burst Watch, the Event Queue and
the ports. -/
structure FilingFrame (s t : State) : Prop where
  pending : t.pending = s.pending
  config : t.config = s.config
  calendar : t.calendar = s.calendar
  settlement : t.settlement = s.settlement
  districts : t.districts = s.districts
  suspensions : t.suspensions = s.suspensions
  history : t.history = s.history
  retention : t.retention = s.retention

theorem FilingFrame.refl (s : State) : FilingFrame s s := ⟨rfl, rfl, rfl, rfl, rfl, rfl, rfl, rfl⟩

theorem FilingFrame.trans (h : FilingFrame s t) (h' : FilingFrame t u) : FilingFrame s u :=
  ⟨h'.pending.trans h.pending, h'.config.trans h.config, h'.calendar.trans h.calendar,
    h'.settlement.trans h.settlement, h'.districts.trans h.districts,
    h'.suspensions.trans h.suspensions, h'.history.trans h.history, h'.retention.trans h.retention⟩

theorem FilingFrame.setIntake (h : FilingFrame s t) (x : Intake) : FilingFrame s (t.setIntake x) :=
  h.trans ⟨rfl, rfl, rfl, rfl, rfl, rfl, rfl, rfl⟩

theorem FilingFrame.append (h : FilingFrame s t) (kind : EventKind) (subject night : Nat) (detail : Int) :
    FilingFrame s (t.append kind subject night detail) :=
  h.trans ⟨by simp, by simp, by simp, by simp, by simp, by simp, by simp, by simp⟩

theorem hear_frame (p : Port) (m : Nat) (s : State) : FilingFrame s (hear p m s) := by
  unfold hear
  dsimp only
  split
  · exact (FilingFrame.refl s).setIntake _
  · exact (((FilingFrame.refl s).setIntake _).setIntake _).append _ _ _ _

theorem reportRange_frame (m v : Nat) (s : State) : FilingFrame s (reportRange m v s) := by
  unfold reportRange
  split
  · exact .refl s
  · exact ((FilingFrame.refl s).setIntake _).append _ _ _ _

theorem fileSlot_frame (m k v : Nat) (s : State) : FilingFrame s (fileSlot m k v s) :=
  (FilingFrame.refl s).setIntake _

theorem offerSlot_frame (p : NightPlan) (m k : Nat) (e : MeterEntry) (s : State) :
    FilingFrame s (offerSlot p m k e s) := by
  unfold offerSlot
  split
  · rw [takeOffer_frame]
    exact ⟨rfl, rfl, rfl, rfl, rfl, rfl, rfl, rfl⟩
  · exact .refl s

theorem applyFate_frame (port : Port) (m : Nat) (e : MeterEntry) (x v : Nat) (f : Fate) (s : State) :
    FilingFrame s (applyFate port m e x v f s) := by
  have heard := hear_frame port m s
  unfold applyFate
  split
  · dsimp only
    split
    · exact heard.trans (reportRange_frame m v _)
    · exact (heard.trans (fileSlot_frame m _ v _)).trans (offerSlot_frame _ m _ e _)
    · exact heard.trans (fileSlot_frame m _ v _)
    · exact heard
  · exact .refl s

theorem takeValues_frame (port : Port) (m : Nat) (e : MeterEntry) (x : Nat) (vs : List Nat) (s : State) :
    FilingFrame s (takeValues port m e x vs s).1 := by
  induction vs generalizing x s with
  | nil => exact .refl s
  | cons v rest ih => exact (applyFate_frame port m e x v _ s).trans (ih _ _)

/-! ### The boundaries of the night (R67 to R72) -/

/-- The two states agree but for what boundaries change: the phase, the marks and the closed window of the calendar, the
nightly state of intake, the run, the Burst Watch, the District State Table, the Event Queue and the ports. -/
structure FiringFrame (s t : State) : Prop where
  pending : t.pending = s.pending
  config : t.config = s.config
  suspensions : t.suspensions = s.suspensions
  history : t.history = s.history
  retention : t.retention = s.retention
  runtime : t.intake.runtime = s.intake.runtime
  instant : t.calendar.t = s.calendar.t
  valid : t.calendar.valid = s.calendar.valid
  rules : t.calendar.rules = s.calendar.rules
  horizon : t.calendar.horizon = s.calendar.horizon
  entryDue : t.calendar.entryDue = s.calendar.entryDue
  leftOut : t.calendar.leftOut = s.calendar.leftOut
  brokenOff : t.calendar.brokenOff = s.calendar.brokenOff

theorem FiringFrame.refl (s : State) : FiringFrame s s :=
  ⟨rfl, rfl, rfl, rfl, rfl, rfl, rfl, rfl, rfl, rfl, rfl, rfl, rfl⟩

theorem FiringFrame.trans (h : FiringFrame s t) (h' : FiringFrame t u) : FiringFrame s u :=
  ⟨h'.pending.trans h.pending, h'.config.trans h.config, h'.suspensions.trans h.suspensions,
    h'.history.trans h.history, h'.retention.trans h.retention, h'.runtime.trans h.runtime,
    h'.instant.trans h.instant, h'.valid.trans h.valid, h'.rules.trans h.rules,
    h'.horizon.trans h.horizon, h'.entryDue.trans h.entryDue, h'.leftOut.trans h.leftOut,
    h'.brokenOff.trans h.brokenOff⟩

theorem entersNight_frame (n : NightPlan) (s : State) : FiringFrame s (entersNight n s) :=
  ⟨rfl, rfl, rfl, rfl, rfl, rfl, rfl, rfl, rfl, rfl, rfl, rfl, rfl⟩

theorem endsWindow_frame (n : NightPlan) (s : State) : FiringFrame s (endsWindow n s) :=
  ⟨rfl, rfl, rfl, rfl, rfl, rfl, rfl, rfl, rfl, rfl, rfl, rfl, rfl⟩

theorem endsGrace_frame (n : NightPlan) (s : State) : FiringFrame s (endsGrace n s) := by
  obtain ⟨hp, hi, hc, hcal, -, hs, hh, hr⟩ := takeAllHeld_keeps s
  unfold endsGrace
  exact ⟨hp, hc, hs, hh, hr, by simp only [hi], by simp only [hcal], by simp only [hcal],
    by simp only [hcal], by simp only [hcal], by simp only [hcal], by simp only [hcal],
    by simp only [hcal]⟩

/-- What holds before and is kept by each boundary whose instant has come holds once every due boundary has fired. -/
theorem fireDue_induction {P : State → Prop} (s : State) (base : P s)
    (start : ∀ n u, u.calendar.cycle = .day (some n) → n.startsAt ≤ u.calendar.t → P u →
      P (entersNight n u))
    (window : ∀ n u, u.calendar.cycle = .opened n → n.endsAt ≤ u.calendar.t → P u → P (endsWindow n u))
    (grace : ∀ n u, u.calendar.cycle = .grace n → n.closesAt ≤ u.calendar.t → P u → P (endsGrace n u)) :
    P (fireDue s) := by
  have first (u : State) (h : P u) : P (fireWindowStart u) := by
    unfold fireWindowStart
    split
    · rename_i n hc
      split
      · rename_i due
        rw [enterNight_eq]
        exact start n u hc due h
      · exact h
    all_goals exact h
  have second (u : State) (h : P u) : P (fireWindowEnd u) := by
    unfold fireWindowEnd
    split
    · rename_i n hc
      split
      · rename_i due
        exact window n u hc due h
      · exact h
    all_goals exact h
  have third (u : State) (h : P u) : P (fireGraceEnd u) := by
    unfold fireGraceEnd
    split
    · rename_i n hc
      split
      · rename_i due
        rw [startSettling_eq]
        exact grace n u hc due h
      · exact h
    all_goals exact h
  exact third _ (second _ (first s base))

theorem fireDue_frame (s : State) : FiringFrame s (fireDue s) :=
  fireDue_induction s (.refl s) (fun n u _ _ h => h.trans (entersNight_frame n u))
    (fun n u _ _ h => h.trans (endsWindow_frame n u)) fun n u _ _ h => h.trans (endsGrace_frame n u)

/-! ### The re-plan and the installation (R49, R65) -/

/-- A re-plan changes the phase alone. -/
theorem replan_frame (s : State) :
    replan s = s.setCalendar { s.calendar with cycle := (replan s).calendar.cycle } := by
  unfold replan
  split
  · rfl
  all_goals rfl

/-- The adjustments of an installation, block by block, before the re-plan (R49, R25, R119, R143, R148). -/
def adoptSet (pd : PendingSet) (night : Nat) (s : State) : State :=
  { s with
    config := { s.config with
      active := pd.config, generation := s.config.generation + 1, pending := none }
    intake := { s.intake with
      runtime := carryMeters s.config.active.meters pd.config.meters s.intake.runtime }
    districts := carryDistricts s.config.active pd.config s.districts
    history := carryHistory s.config.active pd.config s.history
    suspensions := carrySuspensions s.config.active.meters pd.config.meters s.suspensions
    events := (s.append .configInstalled (portCode pd.port) night
      ((s.config.generation + 1).toNat : Int)).events
    ports := (s.append .configInstalled (portCode pd.port) night
      ((s.config.generation + 1).toNat : Int)).ports }

section Install

variable {pd : PendingSet} (night : Nat)

/-- Nothing is installed where nothing is pending. -/
theorem install_of_none (h : s.config.pending = none) : install night s = s := by
  unfold install
  rw [h]

/-- An installation adjusts every block and re-plans. -/
theorem install_of_some (h : s.config.pending = some pd) :
    install night s =
      replan (adoptSet pd night s) := by
  have appended := State.append_congr
    (s.setConfig { s.config with
      active := pd.config, generation := s.config.generation + 1, pending := none })
    .configInstalled (portCode pd.port) night ((s.config.generation + 1).toNat : Int) s rfl rfl
  unfold install
  rw [h]
  dsimp only
  congr 1
  unfold adoptSet
  refine State.ext_fields ?_ ?_ ?_ ?_ ?_ ?_ ?_ ?_ ?_ ?_ ?_ ?_ <;> simp
  · exact appended.1
  · exact appended.2

end Install

/-- The two states agree in what an installation leaves alone. -/
structure InstallFrame (s t : State) : Prop where
  pending : t.pending = s.pending
  hold : t.config.hold = s.config.hold
  burst : t.burst = s.burst
  settlement : t.settlement = s.settlement
  retention : t.retention = s.retention
  store : t.intake.store = s.intake.store
  heard : t.intake.heard = s.intake.heard
  suspended : t.intake.suspended = s.intake.suspended
  rangeReported : t.intake.rangeReported = s.intake.rangeReported
  calendar : t.calendar = { s.calendar with cycle := t.calendar.cycle }

theorem InstallFrame.refl (s : State) : InstallFrame s s :=
  ⟨rfl, rfl, rfl, rfl, rfl, rfl, rfl, rfl, rfl, rfl⟩

theorem install_frame (night : Nat) (s : State) : InstallFrame s (install night s) := by
  cases h : s.config.pending with
  | none =>
    rw [install_of_none night h]
    exact .refl s
  | some pd =>
    rw [install_of_some night h, replan_frame]
    exact ⟨rfl, rfl, rfl, rfl, rfl, rfl, rfl, rfl, rfl, rfl⟩

theorem installNow_frame (s : State) : InstallFrame s (installNow s) := by
  unfold installNow
  split
  · exact install_frame _ s
  · exact .refl s

/-- What holds before and is kept by an installation holds after one in DAY or HALTED. -/
theorem installNow_induction {P : State → Prop} (s : State) (base : P s)
    (installs : ∀ night, installPhase s.calendar.cycle = true → P (install night s)) :
    P (installNow s) := by
  unfold installNow
  split
  · rename_i phase
    exact installs _ phase
  · exact base

/-! ### The phases that a re-plan and an installation leave -/

/-- A planned night of a re-planned phase is a plan of section 3.3, for the same date. -/
theorem replan_cycle (s : State) :
    (∃ p, s.calendar.cycle = .day (some p) ∧ (replan s).calendar.cycle = .day (s.plan p.date)) ∨
      ((∀ p, s.calendar.cycle ≠ .day (some p)) ∧ (replan s).calendar.cycle = s.calendar.cycle) := by
  unfold replan
  split
  · rename_i p hc
    exact .inl ⟨p, hc, rfl⟩
  all_goals
    rename_i hc
    exact .inr ⟨by simp [hc], rfl⟩

/-- A plan that section 3.3 admits, of its date. -/
theorem plan_eq_some {d : Nat} {p : NightPlan} (h : s.plan d = some p) : p.Lawful ∧ p.date = d := by
  simp only [State.plan, planNight] at h
  split at h
  · rename_i fits
    obtain rfl := Option.some.inj h
    exact ⟨⟨by simp [planFor], fits⟩, rfl⟩
  · cases h

/-- The phase of a state after an installation: DAY re-planned, or as it was. -/
theorem install_cycle (night : Nat) (s : State) :
    (∃ p q, s.calendar.cycle = .day (some p) ∧ (install night s).calendar.cycle = .day q ∧
      ∀ r ∈ q, r.Lawful ∧ r.date = p.date) ∨
    (install night s).calendar.cycle = s.calendar.cycle := by
  cases h : s.config.pending with
  | none => exact .inr (by rw [install_of_none night h])
  | some pd =>
    rw [install_of_some night h]
    rcases replan_cycle (adoptSet pd night s) with ⟨p, hc, hr⟩ | ⟨-, hr⟩
    · exact .inl ⟨p, _, hc, hr, fun r hp => plan_eq_some hp⟩
    · exact .inr hr

/-! ### The events of a run (R79 to R81) -/

/-- What the infill pass can do: nothing, or the pass and its mark. -/
theorem infillEvent_cases (s : State) : infillEvent s = s ∨ ∃ run, s.settlement = some run ∧
    infillEvent s = (s.setIntake { s.intake with
      store := infillStore s.config.active.meters run.length s.intake.store }).setSettlement
        (some { run with infilled := true }) := by
  unfold infillEvent
  split
  · exact .inl rfl
  · rename_i run hrun
    split
    · exact .inl rfl
    · exact .inr ⟨run, hrun, rfl⟩

/-- What a hand-over can do: nothing; the skip of the district at the head of the list; or its judgement. -/
theorem handOverEvent_cases (s : State) : handOverEvent s = s ∨
    ∃ run d rest, s.settlement = some run ∧ run.remaining = d :: rest ∧
      (handOverEvent s = s.setSettlement (some { run with remaining := rest }) ∨
        ∃ e r, districtOf s d = some (e, r) ∧ alreadySettled run.date r = false ∧
          handOverEvent s = judgeAndRecord { run with remaining := rest } d e r s) := by
  unfold handOverEvent
  split
  · exact .inl rfl
  · rename_i run hrun
    split
    · rename_i d rest _ hrest
      refine .inr ⟨run, d, rest, hrun, hrest, ?_⟩
      unfold handOverDistrict
      split
      · exact .inl rfl
      · rename_i e r found
        split
        · exact .inl rfl
        · rename_i fresh
          exact .inr ⟨e, r, found, by simpa using fresh, rfl⟩
    · exact .inl rfl

theorem appendJudged_frame (d night : Nat) (event : Option (EventKind × Int)) (s : State) :
    FilingFrame s (appendJudged d night event s) ∧ (appendJudged d night event s).intake = s.intake ∧
      (appendJudged d night event s).burst = s.burst := by
  unfold appendJudged
  split
  · exact ⟨.refl s, rfl, rfl⟩
  · exact ⟨(FilingFrame.refl s).append _ _ _ _, by simp, by simp⟩

theorem appendJudged_congr (d night : Nat) (event : Option (EventKind × Int))
    (he : s.events = t.events) (hp : s.ports = t.ports) :
    (appendJudged d night event s).events = (appendJudged d night event t).events ∧
      (appendJudged d night event s).ports = (appendJudged d night event t).ports := by
  unfold appendJudged
  split
  · exact ⟨he, hp⟩
  · exact State.append_congr s _ _ _ _ t he hp

/-- The judgement and the record of a hand-over, block by block (R101). -/
theorem judgeAndRecord_eq (run : Run) (d : Nat) (e : DistrictEntry) (r : DistrictRuntime) (s : State) :
    let x := settleDistrict s run e
    let j := judgeResult run.date e x.outcome r
    let conditions := conditionsOf run.clockStepped (hasIdx s.burst.raised d) r.configMark x.outcome
    judgeAndRecord run d e r s = { s with
      districts := tput s.districts d (settledRuntime run.date j)
      history := tput s.history d (pushRecord (ringOf s.history d)
        (recordOf run.date e x.positions conditions x.outcome j))
      settlement := some (countResult run j.result)
      events := (appendJudged d run.date j.event s).events
      ports := (appendJudged d run.date j.event s).ports } := by
  intro x j conditions
  obtain ⟨frame, hi, hb⟩ := appendJudged_frame d run.date j.event
    (s.setDistricts (tput s.districts d (settledRuntime run.date j)))
  obtain ⟨he, hp⟩ := appendJudged_congr d run.date j.event
    (s := s.setDistricts (tput s.districts d (settledRuntime run.date j))) (t := s) rfl rfl
  have hh := frame.history
  simp only [State.setDistricts_history] at hh
  refine State.ext_fields frame.pending hi frame.config frame.calendar rfl frame.districts hb
    frame.suspensions ?_ he hp frame.retention
  show tput (appendJudged d run.date j.event _).history d (pushRecord (ringOf
    (appendJudged d run.date j.event _).history d) _) = _
  rw [hh]

/-- What the completion of a run can do: nothing, or NIGHT_SETTLED and the end of the run. -/
theorem completeEvent_cases (s : State) : completeEvent s = s ∨
    ∃ run, s.settlement = some run ∧ completeEvent s =
      (s.append .nightSettled 0 run.date (settledDetail run)).setSettlement none := by
  unfold completeEvent
  split
  · exact .inl rfl
  · rename_i run hrun
    split
    · exact .inr ⟨run, hrun, rfl⟩
    · exact .inl rfl

end Sys2Proof.Machine
end

section
/-!
PROOFS. The law of the event queue (section 8.4): an append keeps it, so does a move of a cursor, and every step is made
of these and of restarts.
-/

namespace Sys2Proof.Machine

variable {i : Option Instr} {s t u : State}

/-! ### The queue alone -/

/-- The entry at place j of a lawful queue. -/
theorem EventQueue.Lawful.serial {q : EventQueue} (h : q.Lawful) {j : Nat} (hj : j < q.entries.length) :
    q.entries[j].serial = q.next - BitVec.ofNat 32 (q.entries.length - j) :=
  h.2.1 j hj

/-- The serials that a lawful queue does not hold lie at a distance of at most 128 from the next. -/
theorem toNat_next_sub {next : Serial} {k : Nat} (h : k ≤ 128) :
    (next - (next - BitVec.ofNat 32 k)).toNat = k := by
  have : next - (next - BitVec.ofNat 32 k) = BitVec.ofNat 32 k := by ring
  rw [this, BitVec.toNat_ofNat]
  omega

theorem toNat_sub_add_le {x c : Serial} {n : Nat} (h : (x - c).toNat ≤ n) :
    (x + 1 - c).toNat ≤ n + 1 := by
  have : x + 1 - c = (x - c) + 1 := by ring
  rw [this, BitVec.toNat_add]
  exact (Nat.mod_le _ _).trans (by simpa using h)

theorem sub_toNat_eq {x c : Serial} {n : Nat} (h : (x - c).toNat = n) : c = x - BitVec.ofNat 32 n := by
  subst h
  rw [BitVec.ofNat_toNat, BitVec.setWidth_eq]
  ring

/-- The newest entry joins a queue that has room. -/
theorem EventQueue.Lawful.push {q : EventQueue} (h : q.Lawful) (room : q.entries.length < 128)
    (kind : EventKind) (subject night : Nat) (detail : Int) :
    ({ q with
      entries := q.entries ++ [⟨q.next, kind, subject, night, detail⟩]
      next := q.next + 1 } : EventQueue).Lawful := by
  obtain ⟨-, serials, cursors⟩ := h
  refine ⟨by simpa using room, fun j hj => ?_, fun p => ?_⟩
  · simp only [List.length_append, List.length_cons, List.length_nil] at hj ⊢
    rw [List.getElem_append]
    split
    · rename_i old
      rw [serials j old, show q.entries.length + (0 + 1) - j = q.entries.length - j + 1 by omega,
        BitVec.ofNat_add]
      exact (add_sub_add_right_eq_sub _ _ _).symm
    · rename_i new
      obtain rfl : j = q.entries.length := by omega
      simp
  · simp only [List.length_append, List.length_cons, List.length_nil]
    exact toNat_sub_add_le (cursors p)

/-- The queue as it stands once a full one has given up its oldest entry (R152, step 1). -/
def EventQueue.shed (q : EventQueue) : EventQueue :=
  match q.entries with
  | [] => q
  | e :: rest =>
    if q.entries.length < 128 then q
    else
      { q with
        entries := rest
        cursors := q.cursors.map (moveCursor e.serial ({ q with entries := rest } : EventQueue).oldest) }

theorem State.makeRoom_events (s : State) : s.makeRoom.events = s.events.shed := by
  unfold State.makeRoom EventQueue.shed Config.eventCapacity
  cases h : s.events.entries with
  | nil => rfl
  | cons e rest =>
    dsimp only
    split <;> rfl

theorem State.append_events (s : State) (kind : EventKind) (subject night : Nat) (detail : Int) :
    (s.append kind subject night detail).events =
      { s.events.shed with
        entries := s.events.shed.entries ++ [⟨s.events.shed.next, kind, subject, night, detail⟩]
        next := s.events.shed.next + 1 } := by
  rw [← State.makeRoom_events]
  rfl

/-- In a full lawful queue the second entry follows the first. -/
theorem EventQueue.Lawful.oldest_rest {q : EventQueue} (h : q.Lawful) {e : Machine.Event}
    {rest : List Machine.Event} (he : q.entries = e :: rest) (full : q.entries.length = 128) :
    e.serial = q.next - BitVec.ofNat 32 128 ∧
      ({ q with entries := rest } : EventQueue).oldest = q.next - BitVec.ofNat 32 127 := by
  have first := h.serial (j := 0) (by omega)
  have second := h.serial (j := 1) (by omega)
  simp only [he, List.getElem_cons_zero, List.getElem_cons_succ] at first second
  have full' : rest.length + 1 = 128 := by simpa [he] using full
  simp only [List.length_cons, full'] at first second
  refine ⟨first, ?_⟩
  cases rest with
  | nil => simp at full'
  | cons e' rest => exact second

theorem EventQueue.Lawful.shed {q : EventQueue} (h : q.Lawful) :
    q.shed.Lawful ∧ q.shed.entries.length < 128 := by
  unfold EventQueue.shed
  split
  · rename_i none
    exact ⟨h, by simp [none]⟩
  rename_i e rest he
  split
  · rename_i room
    exact ⟨h, room⟩
  rename_i full
  have full : q.entries.length = 128 := Nat.le_antisymm h.1 (Nat.not_lt.mp full)
  obtain ⟨first, second⟩ := h.oldest_rest he full
  have hlen : rest.length = 127 := by simpa [he] using full
  refine ⟨⟨by simp only [hlen]; omega, fun j hj => ?_, fun p => ?_⟩, by simp only [hlen]; omega⟩
  · have := h.serial (j := j + 1) (by simp only [he, List.length_cons]; exact Nat.succ_lt_succ hj)
    simp only [he, List.getElem_cons_succ, List.length_cons, Nat.add_sub_add_right] at this
    exact this
  · simp only [PerPort.get_map, moveCursor, second, hlen]
    split
    · exact (toNat_next_sub (by omega)).le
    · rename_i other
      have := h.2.2 p
      rw [full] at this
      rcases Nat.lt_or_eq_of_le this with lt | eq
      · omega
      · exact absurd ((sub_toNat_eq eq).trans first.symm) other

theorem EventQueue.Lawful.append (h : s.events.Lawful) (kind : EventKind) (subject night : Nat)
    (detail : Int) : (s.append kind subject night detail).events.Lawful := by
  rw [State.append_events]
  exact h.shed.1.push h.shed.2 kind subject night detail

/-- Where a read of a lawful queue may start lies no further back than its oldest entry. -/
theorem EventQueue.Lawful.startable {q : EventQueue} (h : q.Lawful) {c : Serial}
    (hc : startable q c = true) : (q.next - c).toNat ≤ q.entries.length := by
  simp only [Machine.startable, Bool.or_eq_true, decide_eq_true_eq, List.any_eq_true] at hc
  rcases hc with rfl | ⟨e, he, rfl⟩
  · simp
  · obtain ⟨j, hj, rfl⟩ := List.getElem_of_mem he
    have := h.1
    rw [h.serial hj, toNat_next_sub (by omega)]
    omega

/-- What is unread from a cursor has as many entries as the cursor lies behind the next serial. -/
theorem entriesFrom_length {q : EventQueue} {c : Serial} (h : (q.next - c).toNat ≤ q.entries.length) :
    (entriesFrom q c).length = (q.next - c).toNat := by
  simp only [entriesFrom, List.length_drop]
  omega

theorem toNat_sub_add_ofNat {x c : Serial} {k : Nat} (h : k ≤ (x - c).toNat) :
    (x - (c + BitVec.ofNat 32 k)).toNat = (x - c).toNat - k := by
  have hx := (x - c).isLt
  have : x - (c + BitVec.ofNat 32 k) = (x - c) - BitVec.ofNat 32 k := by ring
  rw [this, BitVec.toNat_sub, BitVec.toNat_ofNat]
  omega

theorem EventQueue.Lawful.takeEntries {q : EventQueue} (h : q.Lawful) (p : Port) {c : Serial} (m : Nat)
    (hc : (q.next - c).toNat ≤ q.entries.length) : (takeEntries q p c m).1.Lawful := by
  refine ⟨h.1, h.2.1, fun r => ?_⟩
  simp only [Machine.takeEntries, PerPort.get_set]
  split
  · have : ((entriesFrom q c).take m).length ≤ (q.next - c).toNat := by
      rw [List.length_take, entriesFrom_length hc]
      exact Nat.min_le_right _ _
    rw [toNat_sub_add_ofNat this]
    exact (Nat.sub_le _ _).trans hc
  · exact h.2.2 r

theorem EventQueue.started_lawful : EventQueue.started.Lawful :=
  ⟨Nat.zero_le _, nofun, fun p => by cases p <;> exact Nat.zero_le _⟩

/-! ### The operations -/

theorem hear_queue (h : s.events.Lawful) (p : Port) (m : Nat) : (hear p m s).events.Lawful := by
  unfold hear
  dsimp only
  split
  · exact h
  · exact EventQueue.Lawful.append (by exact h) _ _ _ _

theorem reportRange_queue (h : s.events.Lawful) (m v : Nat) : (reportRange m v s).events.Lawful := by
  unfold reportRange
  split
  · exact h
  · exact EventQueue.Lawful.append (by exact h) _ _ _ _

theorem offerSlot_events (p : NightPlan) (m k : Nat) (e : MeterEntry) (s : State) :
    (offerSlot p m k e s).events = s.events := by
  unfold offerSlot
  split
  · rw [takeOffer_frame]
    rfl
  · rfl

theorem applyFate_queue (h : s.events.Lawful) (port : Port) (m : Nat) (e : MeterEntry) (x v : Nat)
    (f : Fate) : (applyFate port m e x v f s).events.Lawful := by
  have heard := hear_queue h port m
  unfold applyFate
  split
  · dsimp only
    split
    · exact reportRange_queue heard m v
    · rw [offerSlot_events]
      exact heard
    · exact heard
    · exact heard
  · exact h

theorem takeValues_queue (h : s.events.Lawful) (port : Port) (m : Nat) (e : MeterEntry) (x : Nat)
    (vs : List Nat) : (takeValues port m e x vs s).1.events.Lawful := by
  induction vs generalizing x s with
  | nil => exact h
  | cons v rest ih => exact ih (applyFate_queue h port m e x v _) _

theorem enterBurst_queue (h : s.events.Lawful) (d night : Nat) : (enterBurst d night s).events.Lawful := by
  unfold enterBurst
  split
  · exact h
  · split
    · exact h
    · exact EventQueue.Lawful.append (by exact h) _ _ _ _

theorem takeHeld_queue (h : s.events.Lawful) (d : Nat) : (takeHeld d s).events.Lawful := by
  unfold takeHeld
  split
  · exact h
  · exact enterBurst_queue (s := dropHeld d s) h _ _

/-- What the taking of one held entry keeps, the taking of all of them keeps. -/
theorem takeAllHeld_induction {P : State → Prop} (s : State) (base : P s)
    (each : ∀ d u, P u → P (takeHeld d u)) : P (takeAllHeld s) := by
  unfold takeAllHeld
  generalize heldOrder s = l
  induction l generalizing s with
  | nil => exact base
  | cons d rest ih => exact ih _ (each d s base)

theorem fireDue_queue (h : s.events.Lawful) : (fireDue s).events.Lawful :=
  fireDue_induction (P := fun u => u.events.Lawful) s h (fun _ _ _ _ h => h) (fun _ _ _ _ h => h)
    fun _ u _ _ h => takeAllHeld_induction (P := fun v => v.events.Lawful) u h fun d _ h =>
      takeHeld_queue h d

theorem replan_events (s : State) : (replan s).events = s.events := by
  rw [replan_frame]
  rfl

theorem install_queue (h : s.events.Lawful) (night : Nat) : (install night s).events.Lawful := by
  cases hp : s.config.pending with
  | none =>
    rw [install_of_none night hp]
    exact h
  | some pd =>
    rw [install_of_some night hp, replan_events]
    exact h.append _ _ _ _

theorem installNow_queue (h : s.events.Lawful) : (installNow s).events.Lawful :=
  installNow_induction (P := fun u => u.events.Lawful) s h fun night _ => install_queue h night

theorem enterFirst_events (s : State) : (enterFirst s).events = s.events := by
  unfold enterFirst
  dsimp only
  split
  · rfl
  · split
    · rfl
    · rw [enterNight_eq]
      rfl

theorem setTime_queue (h : s.events.Lawful) (p : Port) (t : Nat) : (setTime p t s).events.Lawful := by
  unfold setTime
  split
  · exact fireDue_queue (EventQueue.Lawful.append (by exact h) _ _ _ _)
  · unfold setTimeInvalid
    dsimp only
    split
    · exact EventQueue.Lawful.append (by exact h) _ _ _ _
    all_goals
      refine fireDue_queue (EventQueue.Lawful.append (installNow_queue ?_) _ _ _ _)
      rw [enterFirst_events]
      exact h

theorem tick_queue (h : s.events.Lawful) : (tick s).events.Lawful := by
  unfold tick
  split
  · exact fireDue_queue h
  · unfold rangeEnd
    dsimp only
    split
    · exact installNow_queue h
    all_goals exact h

theorem updateMeters_queue (h : s.events.Lawful) (d : Nat) : (updateMeters d s).events.Lawful := by
  unfold updateMeters
  generalize tkeys s.config.active.meters = l
  induction l generalizing s with
  | nil => exact h
  | cons m rest ih =>
    refine ih ?_
    unfold updateMeter
    dsimp only
    split
    · exact EventQueue.Lawful.append (by exact h) _ _ _ _
    · exact h

theorem expireSuspensions_queue (h : s.events.Lawful) (d : Nat) :
    (expireSuspensions d s).events.Lawful := by
  unfold expireSuspensions
  generalize s.suspensions.filter (fun e => expires d e.2) = l
  generalize hu : s.setSuspensions _ = u
  replace h : u.events.Lawful := by rw [← hu]; exact h
  clear hu
  induction l generalizing u with
  | nil => exact h
  | cons x rest ih => exact ih _ (EventQueue.Lawful.append (by exact h) _ _ _ _)

theorem planAfter_events (d : Nat) (s : State) : (planAfter d s).events = s.events := by
  unfold planAfter
  split
  · rfl
  · split
    · rw [enterFirst_events]
      rfl
    · rfl

theorem settlementEndEvent_queue (h : s.events.Lawful) : (settlementEndEvent s).events.Lawful := by
  unfold settlementEndEvent
  split
  · rename_i p _ _
    refine fireDue_queue ?_
    rw [planAfter_events]
    have updated : (updateMeters p.date
        (s.setCalendar { s.calendar with cycle := .day none })).events.Lawful :=
      updateMeters_queue (by exact h) p.date
    exact install_queue (expireSuspensions_queue (by exact updated) _) _
  · exact h

theorem handOverEvent_queue (h : s.events.Lawful) : (handOverEvent s).events.Lawful := by
  rcases handOverEvent_cases s with he | ⟨run, d, rest, -, -, he | ⟨e, r, -, -, he⟩⟩ <;> rw [he]
  · exact h
  · exact h
  · rw [judgeAndRecord_eq]
    dsimp only
    unfold appendJudged
    split
    · exact h
    · exact h.append _ _ _ _

theorem appendBackupLow_queue (h : s.events.Lawful) : (appendBackupLow s).events.Lawful := by
  unfold appendBackupLow
  split
  · exact h.append _ _ _ _
  · exact h

theorem enterStartUp_events (s : State) : (enterStartUp s).events = s.events := by
  unfold enterStartUp
  dsimp only
  split
  · split
    · split
      · unfold reenterNight
        rw [enterNight_eq]
        rfl
      · rfl
    · rfl
  · rfl

/-- What a start-up appends and installs, and the boundaries it fires, keep the law. -/
theorem startUp_queue (h : s.events.Lawful) :
    (fireDue (installNow (appendBackupLow s))).events.Lawful :=
  fireDue_queue (installNow_queue (appendBackupLow_queue h))

theorem Effect.queue (he : Effect i s u) (h : s.events.Lawful) : u.events.Lawful := by
  cases he with
  | nothing | opensHold | edits | countsHold | discards | resumes | rebases | relearns | setsLatch
  | backupReturns => exact h
  | values p m e x vs => exact takeValues_queue h p m e x vs
  | setsTime p t => exact setTime_queue h p t
  | dropsHold hold cause => exact EventQueue.Lawful.append (by exact h) _ _ _ _
  | commits p hold => exact fireDue_queue (installNow_queue h)
  | suspends m x =>
    unfold markSuspended
    split <;> exact h
  | acks p d e r a => exact EventQueue.Lawful.append (by exact h) _ _ _ _
  | readsEvents p c m start =>
    refine h.takeEntries p m ?_
    rcases start with rfl | start
    · exact h.2.2 p
    · exact h.startable start
  | setsRules rules =>
    refine fireDue_queue ?_
    rw [replan_events]
    exact h
  | ticks => exact tick_queue h
  | fires => exact fireDue_queue h
  | infills => rcases infillEvent_cases s with hu | ⟨run, -, hu⟩ <;> rw [hu] <;> exact h
  | handsOver => exact handOverEvent_queue h
  | completes =>
    rcases completeEvent_cases s with hu | ⟨run, -, hu⟩ <;> rw [hu]
    · exact h
    · exact EventQueue.Lawful.append (by exact h) _ _ _ _
  | settles => exact settlementEndEvent_queue h
  | takesHeld d => exact takeHeld_queue h d
  | powersUp b =>
    refine startUp_queue ?_
    have entered (r : State) : (enterStartUp (startMain r)).events.Lawful := by
      rw [enterStartUp_events]
      exact EventQueue.started_lawful
    split
    · exact EventQueue.Lawful.append (entered _) _ _ _ _
    · exact entered _
  | resets =>
    refine startUp_queue ?_
    rw [enterStartUp_events]
    exact EventQueue.started_lawful
  | losesPower => exact EventQueue.started_lawful
  | backupFalls =>
    unfold Machine.backupFalls
    split
    · exact appendBackupLow_queue h
    · exact h

/-- Settles O51: the one effect of a step keeps the law, and the changes of the ports beside it touch no entry. -/
theorem stepKeepsEventQueueLaw : Obligations.StepKeepsEventQueueLaw := by
  intro s t lawful hstep
  obtain ⟨x, u, y, effect, rfl, -, -⟩ := step_effect hstep
  exact effect.queue lawful

end Sys2Proof.Machine
end

section
/-!
PROOFS. The law of the night cycle (sections 3.1, 3.3 and 3.4): once the phase fits the calendar and carries a lawful
plan, the firing of every due boundary leaves none waiting.
-/

namespace Sys2Proof.Machine

variable {i : Option Instr} {s t u : State}

/-! ### Before the boundaries fire -/

/-- The plan of a phase whose boundary lies ahead is lawful. -/
def NightCycle.PlanLawful (c : NightCycle) : Prop :=
  ∀ p, c = .day (some p) ∨ c = .opened p ∨ c = .grace p → p.Lawful

/-- The law of the night cycle but for the boundaries that may be waiting to fire. -/
def CycleReady (c : Calendar) (r : Retention) : Prop :=
  c.t ≤ 3155759999 ∧ c.cycle.PlanLawful ∧ (r.powered = true → PhaseFits c.valid c.cycle) ∧
  (r.powered = false → c.cycle = .halted)

theorem CycleLawful.ready (h : CycleLawful s) : CycleReady s.calendar s.retention := by
  obtain ⟨range, due, fits, off⟩ := h
  refine ⟨range, fun p hp => ?_, fits, off⟩
  rcases hp with hp | hp | hp <;> rw [hp] at due <;> exact due.1

/-- The law reads the calendar and whether main power is present alone. -/
theorem CycleLawful.congr (h : CycleLawful s) (hc : t.calendar = s.calendar)
    (hr : t.retention.powered = s.retention.powered) : CycleLawful t := by
  unfold CycleLawful
  rw [hc, hr]
  exact h

theorem fireDue_of_halted (h : s.calendar.cycle = .halted) : fireDue s = s := by
  have := fireDue_firesTo s
  simpa only [FiresTo, h] using this

theorem fireDue_nothingDue (h : s.calendar.cycle.PlanLawful) :
    NothingDue (fireDue s).calendar.cycle s.calendar.t := by
  have fires := fireDue_firesTo s
  unfold FiresTo at fires
  cases hc : s.calendar.cycle with
  | halted => rw [fireDue_of_halted hc, hc]; trivial
  | settling p =>
    simp only [hc] at fires
    rw [fires, hc]; trivial
  | day q =>
    cases q with
    | none =>
      simp only [hc] at fires
      rw [fires, hc]; trivial
    | some p =>
      simp only [hc] at fires
      have lawful : p.Lawful := h p (.inl hc)
      obtain ⟨wait, opened, closed, ended⟩ := fires
      by_cases starts : s.calendar.t < 900 * p.window
      · rw [wait starts, hc]
        exact ⟨lawful, starts⟩
      by_cases ends : s.calendar.t < 900 * (p.window + p.length)
      · rw [opened (not_lt.1 starts) ends]
        exact ⟨lawful, ends⟩
      by_cases closes : s.calendar.t < 900 * p.graceEnd
      · rw [closed (not_lt.1 ends) closes]
        exact ⟨lawful, closes⟩
      · rw [ended (not_lt.1 ends) (not_lt.1 closes)]
        trivial
  | opened p =>
    simp only [hc] at fires
    have lawful : p.Lawful := h p (.inr (.inl hc))
    obtain ⟨wait, closed, ended⟩ := fires
    by_cases ends : s.calendar.t < 900 * (p.window + p.length)
    · rw [wait ends, hc]
      exact ⟨lawful, ends⟩
    by_cases closes : s.calendar.t < 900 * p.graceEnd
    · rw [closed (not_lt.1 ends) closes]
      exact ⟨lawful, closes⟩
    · rw [ended (not_lt.1 ends) (not_lt.1 closes)]
      trivial
  | grace p =>
    simp only [hc] at fires
    have lawful : p.Lawful := h p (.inr (.inr hc))
    obtain ⟨wait, ended⟩ := fires
    by_cases closes : s.calendar.t < 900 * p.graceEnd
    · rw [wait closes, hc]
      exact ⟨lawful, closes⟩
    · rw [ended (not_lt.1 closes)]
      trivial

theorem fireDue_phaseFits (h : PhaseFits s.calendar.valid s.calendar.cycle) :
    PhaseFits s.calendar.valid (fireDue s).calendar.cycle := by
  have key : PhaseFits (fireDue s).calendar.valid (fireDue s).calendar.cycle := by
    refine fireDue_induction (P := fun u => PhaseFits u.calendar.valid u.calendar.cycle) s h ?_ ?_ ?_
    · intro n u hc _ h
      rw [hc] at h
      exact h
    · intro n u hc _ h
      rw [hc] at h
      exact h
    · intro n u _ _ _
      trivial
  rwa [(fireDue_frame s).valid] at key

/-- Firing every due boundary leaves the law. -/
theorem CycleReady.fireDue (h : CycleReady s.calendar s.retention) : CycleLawful (fireDue s) := by
  obtain ⟨range, plan, fits, off⟩ := h
  have frame := fireDue_frame s
  refine ⟨by rw [frame.instant]; exact range, ?_, fun on => ?_, fun hoff => ?_⟩
  · rw [frame.instant]
    exact fireDue_nothingDue plan
  · rw [frame.retention] at on
    rw [frame.valid]
    exact fireDue_phaseFits (fits on)
  · rw [frame.retention] at hoff
    rw [fireDue_of_halted (off hoff)]
    exact off hoff

/-! ### What makes a cycle ready -/

theorem CycleReady.setCycle {c : Calendar} {r : Retention} (h : CycleReady c r) {x : NightCycle}
    (plan : x.PlanLawful) (fits : r.powered = true → PhaseFits c.valid x)
    (off : r.powered = false → x = .halted) : CycleReady { c with cycle := x } r :=
  ⟨h.1, plan, fits, off⟩

theorem planLawful_day {o : Option NightPlan} (h : ∀ p ∈ o, p.Lawful) : (NightCycle.day o).PlanLawful := by
  rintro p (hp | hp | hp)
  · exact h p (by simpa using hp)
  · cases hp
  · cases hp

theorem planLawful_opened {p : NightPlan} (h : p.Lawful) : (NightCycle.opened p).PlanLawful := by
  rintro q (hq | hq | hq)
  · cases hq
  · obtain rfl := NightCycle.opened.inj hq
    exact h
  · cases hq

theorem planLawful_grace {p : NightPlan} (h : p.Lawful) : (NightCycle.grace p).PlanLawful := by
  rintro q (hq | hq | hq)
  · cases hq
  · cases hq
  · obtain rfl := NightCycle.grace.inj hq
    exact h

theorem planLawful_halted : NightCycle.halted.PlanLawful := by
  rintro p (hp | hp | hp) <;> cases hp

/-- A re-plan leaves a lawful plan, and DAY stays DAY. -/
theorem CycleReady.replan (h : CycleReady s.calendar s.retention) :
    CycleReady (replan s).calendar (replan s).retention := by
  rcases replan_cycle s with ⟨p, hc, hr⟩ | ⟨-, hr⟩
  · rw [replan_frame, hr]
    refine h.setCycle (planLawful_day fun q hq => (plan_eq_some hq).1) (fun on => ?_) fun off => ?_
    · have := h.2.2.1 on
      rw [hc] at this
      exact this
    · have := h.2.2.2 off
      rw [hc] at this
      cases this
  · rw [replan_frame, hr]
    exact h

theorem CycleReady.install (h : CycleReady s.calendar s.retention) (night : Nat) :
    CycleReady (install night s).calendar (install night s).retention := by
  cases hp : s.config.pending with
  | none =>
    rw [install_of_none night hp]
    exact h
  | some pd =>
    rw [install_of_some night hp]
    exact CycleReady.replan (s := adoptSet pd night s) h

theorem CycleReady.installNow (h : CycleReady s.calendar s.retention) :
    CycleReady (installNow s).calendar (installNow s).retention :=
  installNow_induction (P := fun u => CycleReady u.calendar u.retention) s h fun night _ =>
    h.install night

/-- What an entry at a first setting can leave: DAY, with a lawful plan or none, or a lawful night entered. -/
theorem enterFirst_cases (s : State) :
    (∃ closed o, (∀ p ∈ o, p.Lawful ∧ p.date ∉ s.calendar.leftOut) ∧
      enterFirst s = s.setCalendar
        { s.calendar with closed := closed, cycle := .day o, horizon := none }) ∨
    ∃ closed p, p.Lawful ∧ p.date ∉ s.calendar.leftOut ∧ enterFirst s = entersNight p (s.setCalendar
        { s.calendar with closed := closed, cycle := .day none, horizon := none }) := by
  unfold enterFirst
  dsimp only
  split
  · exact .inl ⟨_, none, by simp, rfl⟩
  · rename_i p hp
    obtain ⟨d, hd, hplan⟩ := Option.bind_eq_some_iff.1 hp
    obtain ⟨f, hf, rfl⟩ := Option.map_eq_some_iff.1 hd
    obtain ⟨lawful, hdate⟩ := plan_eq_some hplan
    have outside : p.date ∉ s.calendar.leftOut := by
      rw [hdate]
      exact (firstOutside_spec _ _).2.1
    split
    · refine .inl ⟨_, some p, fun q hq => ?_, rfl⟩
      obtain rfl := Option.some.inj hq
      exact ⟨lawful, outside⟩
    · exact .inr ⟨_, p, lawful, outside, enterNight_eq _ _⟩

theorem CycleReady.enterFirst (range : s.calendar.t ≤ 3155759999) (valid : s.calendar.valid = true)
    (on : s.retention.powered = true) :
    CycleReady (enterFirst s).calendar (enterFirst s).retention := by
  have off {x : NightCycle} : s.retention.powered = false → x = .halted := by simp [on]
  rcases enterFirst_cases s with ⟨closed, o, lawful, he⟩ | ⟨closed, p, lawful, -, he⟩ <;> rw [he]
  · exact ⟨range, planLawful_day fun p hp => (lawful p hp).1, fun _ => valid, off⟩
  · exact ⟨range, planLawful_opened lawful, fun _ => valid, off⟩

theorem setTime_cycle (h : CycleLawful s) (on : s.retention.powered = true) (p : Port) {t : Nat}
    (range : t ≤ Config.lastSecond) : CycleLawful (setTime p t s) := by
  have ready := h.ready
  have off {x : NightCycle} : s.retention.powered = false → x = .halted := by simp [on]
  unfold setTime
  split
  · refine CycleReady.fireDue ?_
    rw [State.append_calendar, State.append_retention]
    unfold stepCalendar
    dsimp only
    split <;> exact ⟨range, ready.2.1, ready.2.2.1, off⟩
  · unfold setTimeInvalid
    dsimp only
    split
    · rename_i q hc
      unfold CycleLawful
      rw [State.append_calendar, State.append_retention]
      refine ⟨range, ?_, fun _ => ?_, off⟩
      · simp only [State.setCalendar_calendar, hc]
        trivial
      · simp only [State.setCalendar_calendar, hc]
        trivial
    all_goals
      refine CycleReady.fireDue ?_
      rw [State.append_calendar, State.append_retention]
      exact (CycleReady.enterFirst (s := s.setCalendar { s.calendar with t := t, valid := true })
        range rfl on).installNow

theorem tick_cycle (h : CycleLawful s) : CycleLawful (tick s) := by
  have ready := h.ready
  unfold tick
  split
  · rename_i before
    refine CycleReady.fireDue ⟨?_, ready.2.1, ready.2.2.1, ready.2.2.2⟩
    exact before
  rename_i last
  have last : 3155759999 ≤ s.calendar.t := not_lt.1 last
  obtain ⟨-, due, fits, off⟩ := h
  have halted : CycleReady { s.calendar with t := 0, valid := false, horizon := none, cycle := .halted }
      s.retention :=
    ⟨Nat.zero_le _, planLawful_halted, fun _ => rfl, fun _ => rfl⟩
  unfold rangeEnd
  dsimp only
  cases hc : s.calendar.cycle with
  | day q =>
    have : CycleReady _ _ := halted
    have := this.installNow (s := s.setCalendar _)
    refine ⟨this.1, ?_, this.2.2⟩
    have phase : (installNow (s.setCalendar { s.calendar with
        t := 0, valid := false, horizon := none, cycle := .halted })).calendar.cycle = .halted := by
      refine installNow_induction (P := fun u => u.calendar.cycle = .halted) _ rfl fun night _ => ?_
      rcases install_cycle night (s.setCalendar { s.calendar with
        t := 0, valid := false, horizon := none, cycle := .halted }) with ⟨p, q, hp, -⟩ | he
      · cases hp
      · exact he
    simp only [haltDay]
    rw [phase]
    trivial
  | halted => exact ⟨Nat.zero_le _, trivial, fun _ => rfl, fun _ => rfl⟩
  | settling p =>
    refine ⟨Nat.zero_le _, trivial, fun _ => trivial, fun hoff => ?_⟩
    have := off hoff
    rw [hc] at this
    cases this
  | opened p =>
    rw [hc] at due
    obtain ⟨⟨order, close⟩, due⟩ := due
    simp only [NightPlan.closesAt, Config.intervalSeconds] at close
    omega
  | grace p =>
    rw [hc] at due
    obtain ⟨⟨order, close⟩, due⟩ := due
    simp only [NightPlan.closesAt, Config.intervalSeconds] at close
    omega

/-! ### The settlement end -/

theorem appends_keep {α β : Type} (field : State → β) (l : List α)
    (f : State → α → State) (keep : ∀ u x, field (f u x) = field u) (s : State) :
    field (l.foldl f s) = field s := by
  induction l generalizing s with
  | nil => rfl
  | cons x rest ih => rw [List.foldl_cons, ih, keep]

theorem updateMeter_keeps {β : Type} (field : State → β) (d : Nat)
    (intake : ∀ u x, field (u.setIntake x) = field u)
    (append : ∀ u k a b c, field (State.append u k a b c) = field u) (u : State) (m : Nat) :
    field (updateMeter d u m) = field u := by
  unfold updateMeter
  dsimp only
  split
  · rw [append, intake]
  · rw [intake]

/-- The update of the meters' histories changes intake's runtimes, the Event Queue and the ports alone. -/
theorem updateMeters_keeps {β : Type} (field : State → β) (d : Nat)
    (intake : ∀ u x, field (u.setIntake x) = field u)
    (append : ∀ u k a b c, field (State.append u k a b c) = field u) (s : State) :
    field (updateMeters d s) = field s :=
  appends_keep field _ _ (fun u m => updateMeter_keeps field d intake append u m) s

/-- The expiry of suspensions changes the list, the Event Queue and the ports alone. -/
theorem expireSuspensions_keeps {β : Type} (field : State → β) (d : Nat)
    (list : ∀ u x, field (u.setSuspensions x) = field u)
    (append : ∀ u k a b c, field (State.append u k a b c) = field u) (s : State) :
    field (expireSuspensions d s) = field s := by
  unfold expireSuspensions
  rw [appends_keep field _ _ (fun u x => append u _ _ _ _), list]

/-- The state as a settlement end of night p leaves it once installed, before it plans or enters (R71). -/
def settledState (p : NightPlan) (s : State) : State :=
  let s1 := updateMeters p.date (s.setCalendar { s.calendar with cycle := .day none })
  install p.date (expireSuspensions p.date (s1.setIntake (clearNight s1.intake)))

theorem endSettlement_eq (p : NightPlan) (s : State) :
    endSettlement p s = fireDue (planAfter p.date (settledState p s)) := rfl

@[simp] theorem settledState_calendar (p : NightPlan) (s : State) :
    (settledState p s).calendar = { s.calendar with cycle := .day none } := by
  have before (u : State) (hu : u.calendar = { s.calendar with cycle := .day none }) :
      (install p.date (expireSuspensions p.date u)).calendar =
        { s.calendar with cycle := .day none } := by
    have expired : (expireSuspensions p.date u).calendar = u.calendar :=
      expireSuspensions_keeps State.calendar _ (fun _ _ => rfl) (fun u => u.append_calendar) u
    rw [(install_frame _ _).calendar]
    rcases install_cycle p.date (expireSuspensions p.date u) with ⟨q, o, hq, -⟩ | he
    · rw [expired, hu] at hq
      cases hq
    · rw [he, expired, hu]
  refine before _ ?_
  exact updateMeters_keeps State.calendar _ (fun _ _ => rfl) (fun u => u.append_calendar) _

@[simp] theorem settledState_retention (p : NightPlan) (s : State) :
    (settledState p s).retention = s.retention := by
  unfold settledState
  rw [(install_frame _ _).retention,
    expireSuspensions_keeps State.retention _ (fun _ _ => rfl) (fun u => u.append_retention)]
  exact updateMeters_keeps State.retention _ (fun _ _ => rfl) (fun u => u.append_retention) _

theorem planAfter_ready (range : s.calendar.t ≤ 3155759999) (on : s.retention.powered = true) (d : Nat) :
    CycleReady (planAfter d s).calendar (planAfter d s).retention := by
  have off {x : NightCycle} : s.retention.powered = false → x = .halted := by simp [on]
  unfold planAfter
  split
  · rename_i invalid
    have invalid : s.calendar.valid = false := by simpa using invalid
    exact ⟨range, planLawful_halted, fun _ => invalid, fun _ => rfl⟩
  rename_i valid
  have valid : s.calendar.valid = true := by simpa using valid
  split
  · exact CycleReady.enterFirst (s := s.setCalendar { s.calendar with entryDue := false }) range valid on
  · exact ⟨range, planLawful_day fun p hp => (plan_eq_some hp).1, fun _ => valid, off⟩

theorem settlementEndEvent_cycle (h : CycleLawful s) (on : s.retention.powered = true) :
    CycleLawful (settlementEndEvent s) := by
  unfold settlementEndEvent
  split
  · rename_i p _ _
    rw [endSettlement_eq]
    exact (planAfter_ready (by simpa using h.1) (by simpa using on) _).fireDue
  · exact h

/-! ### Start-ups -/

/-- The nights that a start-up may enter (R76, R83; log 39). -/
def Calendar.Enters (c : Calendar) (d : Nat) : Prop :=
  d ∉ c.leftOut ∧ ∀ n, c.brokenOff = .settling n → n < d

theorem plan_eq_planFor {d : Nat} {p : NightPlan} (h : s.plan d = some p) :
    p = planFor s.config.active.night s.calendar.rules d := by
  simp only [State.plan, planNight] at h
  split at h
  · exact (Option.some.inj h).symm
  · cases h

/-- What an entry at a start-up can leave: HALTED; DAY, with a lawful plan of a night it may enter or none; or such a
night entered again. -/
theorem enterStartUp_cases (s : State) :
    (s.calendar.valid = false ∧
      enterStartUp s = s.setCalendar { s.calendar with brokenOff := .nothing, cycle := .halted }) ∨
    s.calendar.valid = true ∧
      ((∃ closed o, (∀ p ∈ o, p.Lawful ∧ s.calendar.Enters p.date) ∧ enterStartUp s = s.setCalendar
          { s.calendar with brokenOff := .nothing, closed := closed, cycle := .day o }) ∨
        ∃ closed p, p.Lawful ∧ s.calendar.Enters p.date ∧ p.startsAt ≤ s.calendar.t ∧
          s.calendar.t < p.closesAt ∧ enterStartUp s = reenterNight p (s.setCalendar
            { s.calendar with brokenOff := .nothing, closed := closed, cycle := .day none })) := by
  unfold enterStartUp
  dsimp only
  split
  case isFalse invalid => exact .inl ⟨by simpa using invalid, rfl⟩
  rename_i valid
  refine .inr ⟨valid, ?_⟩
  split
  · rename_i d hd
    obtain ⟨hspan, henter⟩ := Option.filter_eq_some_iff.1 hd
    obtain ⟨starts, closes⟩ := nightSpanning_spans _ _ _ hspan
    split
    · rename_i p hp
      obtain ⟨lawful, rfl⟩ := plan_eq_some hp
      rw [← plan_eq_planFor hp] at starts closes
      exact .inr ⟨_, p, lawful, (s.calendar.mayEnter_iff _).1 henter, starts, closes, rfl⟩
    · exact .inl ⟨_, none, by simp, rfl⟩
  · refine .inl ⟨_, _, fun p hp => ?_, rfl⟩
    obtain ⟨d, hd, hplan⟩ := Option.bind_eq_some_iff.1 hp
    obtain ⟨f, -, rfl⟩ := Option.map_eq_some_iff.1 hd
    obtain ⟨lawful, hdate⟩ := plan_eq_some hplan
    exact ⟨lawful, hdate ▸ (s.calendar.firstToPlan_spec f).2.1.1⟩

theorem reenterNight_calendar (p : NightPlan) (s : State) : (reenterNight p s).calendar = { s.calendar with
    cycle := reenteredPhase s.calendar.t p, disturbed := true,
    clockStepped := (entersNight p s).calendar.clockStepped } := by
  unfold reenterNight
  rw [enterNight_eq]
  rfl

theorem reenteredPhase_cases (t : Nat) (p : NightPlan) :
    reenteredPhase t p = .opened p ∨ reenteredPhase t p = .grace p := by
  unfold reenteredPhase
  split
  · exact .inl rfl
  · exact .inr rfl

theorem CycleReady.enterStartUp (range : s.calendar.t ≤ 3155759999) (on : s.retention.powered = true) :
    CycleReady (enterStartUp s).calendar (enterStartUp s).retention := by
  have off {x : NightCycle} : s.retention.powered = false → x = .halted := by simp [on]
  rcases enterStartUp_cases s with ⟨invalid, he⟩ |
    ⟨valid, ⟨closed, o, lawful, he⟩ | ⟨closed, p, lawful, -, -, -, he⟩⟩ <;> rw [he]
  · exact ⟨range, planLawful_halted, fun _ => invalid, fun _ => rfl⟩
  · exact ⟨range, planLawful_day fun p hp => (lawful p hp).1, fun _ => valid, off⟩
  · rw [reenterNight_calendar]
    rcases reenteredPhase_cases s.calendar.t p with hp | hp
    · simp only [State.setCalendar_calendar, hp]
      exact ⟨range, planLawful_opened lawful, fun _ => valid, off⟩
    · simp only [State.setCalendar_calendar, hp]
      exact ⟨range, planLawful_grace lawful, fun _ => valid, off⟩

@[simp] theorem appendBackupLow_calendar (s : State) : (appendBackupLow s).calendar = s.calendar := by
  unfold appendBackupLow
  split
  · exact s.append_calendar _ _ _ _
  · rfl

@[simp] theorem appendBackupLow_retention (s : State) : (appendBackupLow s).retention = s.retention := by
  unfold appendBackupLow
  split
  · exact s.append_retention _ _ _ _
  · rfl

@[simp] theorem appendLapsed_calendar (s : State) : (appendLapsed s).calendar = s.calendar :=
  s.append_calendar _ _ _ _

@[simp] theorem appendLapsed_retention (s : State) : (appendLapsed s).retention = s.retention :=
  s.append_retention _ _ _ _

/-- A start-up, once the cycle is entered, ends in a lawful night cycle. -/
theorem startUp_cycle (h : CycleReady s.calendar s.retention) :
    CycleLawful (fireDue (installNow (appendBackupLow s))) := by
  refine (CycleReady.installNow ?_).fireDue
  rw [appendBackupLow_calendar, appendBackupLow_retention]
  exact h

@[simp] theorem interruptNight_t (c : Calendar) : (interruptNight c).t = c.t := by
  unfold interruptNight
  split <;> rfl

theorem returnPower_cycle (h : CycleLawful s) (b : BackupState) : CycleLawful (returnPower b s) := by
  refine startUp_cycle ?_
  have entered : CycleReady (enterStartUp (startMain (judgeRetention b s))).calendar
      (enterStartUp (startMain (judgeRetention b s))).retention := by
    refine CycleReady.enterStartUp ?_ rfl
    unfold judgeRetention
    split
    · exact Nat.zero_le _
    · exact h.1
  split
  · rw [appendLapsed_calendar, appendLapsed_retention]
    exact entered
  · exact entered

theorem Effect.cycle (he : Effect i s u) (h : CycleLawful s) : CycleLawful u := by
  cases he with
  | nothing | opensHold | edits | countsHold | discards | resumes | rebases | relearns | readsEvents =>
    exact h
  | values p m e x vs =>
    have frame := takeValues_frame p m e x vs s
    exact h.congr frame.calendar (by rw [frame.retention])
  | setsTime p t on range => exact setTime_cycle h on p range
  | dropsHold | acks =>
    exact h.congr (State.append_calendar _ _ _ _ _)
      (congrArg Retention.powered (State.append_retention _ _ _ _ _))
  | commits p hold => exact (CycleReady.installNow (by exact h.ready)).fireDue
  | suspends m x =>
    unfold markSuspended
    split <;> exact h
  | setsRules rules on =>
    exact (CycleReady.replan (s := s.setCalendar { s.calendar with rules := rules }) h.ready).fireDue
  | ticks => exact tick_cycle h
  | fires => exact h.ready.fireDue
  | infills => rcases infillEvent_cases s with hu | ⟨run, -, hu⟩ <;> rw [hu] <;> exact h
  | handsOver =>
    rcases handOverEvent_cases s with hu | ⟨run, d, rest, -, -, hu | ⟨e, r, -, -, hu⟩⟩ <;> rw [hu]
    · exact h
    · exact h
    · rw [judgeAndRecord_eq]
      exact h
  | completes =>
    rcases completeEvent_cases s with hu | ⟨run, -, hu⟩ <;> rw [hu]
    · exact h
    · exact h.congr (State.append_calendar s .nightSettled 0 run.date (settledDetail run))
        (congrArg Retention.powered (State.append_retention s .nightSettled 0 run.date (settledDetail run)))
  | settles on => exact settlementEndEvent_cycle h on
  | takesHeld d =>
    obtain ⟨-, -, -, hc, -, -, -, hr⟩ := takeHeld_keeps d s
    exact h.congr hc (by rw [hr])
  | powersUp b => exact returnPower_cycle h b
  | resets on =>
    refine startUp_cycle (CycleReady.enterStartUp ?_ on)
    exact (interruptNight_t s.calendar).trans_le h.1
  | losesPower =>
    refine ⟨(interruptNight_t s.calendar).trans_le h.1, trivial, ?_, fun _ => rfl⟩
    intro on
    cases on
  | setsLatch | backupReturns => exact h
  | backupFalls =>
    unfold Machine.backupFalls
    split
    · exact h.congr (appendBackupLow_calendar _) (by rw [appendBackupLow_retention]; rfl)
    · exact h

/-- Settles O52: the one effect of a step keeps the law. -/
theorem stepKeepsNightCycleLaw : Obligations.StepKeepsNightCycleLaw := by
  intro s t lawful hstep
  obtain ⟨x, u, y, effect, rfl, -, -⟩ := step_effect hstep
  exact effect.cycle lawful

end Sys2Proof.Machine
end

section
/-!
PROOFS. The records of the part, its configuration, District State Table and History Store: the few updates through
which a command can change them, and an induction over those updates.
-/

namespace Sys2Proof.Machine

variable {i : Option Instr} {s t u : State} {P : State → Prop}

/-- The two states hold the same configuration, District State Table and History Store. -/
structure SameRecords (s t : State) : Prop where
  config : t.config = s.config
  districts : t.districts = s.districts
  history : t.history = s.history

theorem SameRecords.refl (s : State) : SameRecords s s := ⟨rfl, rfl, rfl⟩

theorem SameRecords.trans (h : SameRecords s t) (h' : SameRecords t u) : SameRecords s u :=
  ⟨h'.config.trans h.config, h'.districts.trans h.districts, h'.history.trans h.history⟩

theorem FilingFrame.sameRecords (h : FilingFrame s t) : SameRecords s t :=
  ⟨h.config, h.districts, h.history⟩

theorem SameRecords.append (h : SameRecords s t) (kind : EventKind) (subject night : Nat) (detail : Int) :
    SameRecords s (t.append kind subject night detail) :=
  h.trans ⟨by simp, by simp, by simp⟩

/-- The records of a judged and recorded hand-over (R101). -/
def handedOver (run : Run) (d : Nat) (e : DistrictEntry) (r : DistrictRuntime) (s : State) : State :=
  let x := settleDistrict s run e
  let j := judgeResult run.date e x.outcome r
  { s with
    districts := tput s.districts d (settledRuntime run.date j)
    history := tput s.history d (pushRecord (ringOf s.history d)
      (recordOf run.date e x.positions
        (conditionsOf run.clockStepped (hasIdx s.burst.raised d) r.configMark x.outcome) x.outcome j)) }

/-- A property of the records that each of their updates keeps. The updates that a command makes first start from the
state `s` that it finds. -/
structure RecordsKept (s : State) (P : State → Prop) : Prop where
  congr : ∀ {u v}, P u → SameRecords u v → P v
  opens : ∀ p : Port, p ≠ .a → s.config.hold = none →
    P (s.setHold (some ⟨p, stagingSource s.config, 300⟩))
  edits : ∀ h edit c, s.config.hold = some h → StagingEdit edit → edit h.staging = .ok c →
    P (s.setHold (some { h with staging := c, timer := 300 }))
  counts : ∀ h n, s.config.hold = some h → n ≤ 300 ∨ n ≤ h.timer →
    P (s.setHold (some { h with timer := n }))
  discards : P (s.setHold none)
  commits : ∀ p h, s.config.hold = some h → validate h.staging = none →
    P (s.setConfig { s.config with pending := some ⟨h.staging, p⟩, hold := none })
  acks : ∀ d e r a, districtOf s d = some (e, r) → r.alarm = .leak → r.record = some a →
    P (s.setDistricts (tput s.districts d { r with alarm := .standing }))
  rebases : ∀ d e r date b, districtOf s d = some (e, r) →
    newestAssessed (ringOf s.history d) = some (date, b) →
    P (s.setDistricts (tput s.districts d (rebased b r)))
  relearns : ∀ d e r, districtOf s d = some (e, r) →
    P (s.setDistricts (tput s.districts d (relearning r)))
  judges : ∀ run d e r, districtOf s d = some (e, r) → alreadySettled run.date r = false →
    P (handedOver run d e r s)
  installs : ∀ u pd night, u.config.pending = some pd → P u → P (adoptSet pd night u)
  bursts : ∀ u d r r' cause night, tget u.districts d = some r → raiseBurst night r = (r', some cause) →
    P u → P (u.setDistricts (tput u.districts d r'))
  empties : ∀ u, P u → P (startMain u)
  lapses : P (startMain (lapse s))

namespace RecordsKept

variable (k : RecordsKept s P)
include k

theorem appended (h : P u) (kind : EventKind) (subject night : Nat) (detail : Int) :
    P (u.append kind subject night detail) :=
  k.congr h ((SameRecords.refl u).append kind subject night detail)

theorem enterBurst (h : P u) (d night : Nat) : P (enterBurst d night u) := by
  unfold Machine.enterBurst
  split
  · exact h
  · rename_i r found
    split
    · exact h
    · rename_i r' cause raised
      exact k.appended (k.bursts u d r r' cause night found raised h) _ _ _ _

theorem takeHeld (h : P u) (d : Nat) : P (takeHeld d u) := by
  unfold Machine.takeHeld
  split
  · exact h
  · exact k.enterBurst (u := dropHeld d u) (k.congr h ⟨rfl, rfl, rfl⟩) _ _

theorem fireDue (h : P u) : P (fireDue u) :=
  fireDue_induction u h (fun _ _ _ _ h => k.congr h ⟨rfl, rfl, rfl⟩)
    (fun _ _ _ _ h => k.congr h ⟨rfl, rfl, rfl⟩)
    fun _ v _ _ h => k.congr (takeAllHeld_induction v h fun d _ h => k.takeHeld h d) ⟨rfl, rfl, rfl⟩

theorem replan (h : P u) : P (replan u) := by
  rw [replan_frame]
  exact k.congr h ⟨rfl, rfl, rfl⟩

theorem install (h : P u) (night : Nat) : P (install night u) := by
  cases hp : u.config.pending with
  | none =>
    rw [install_of_none night hp]
    exact h
  | some pd =>
    rw [install_of_some night hp]
    exact k.replan (k.installs u pd night hp h)

theorem installNow (h : P u) : P (installNow u) :=
  installNow_induction u h fun night _ => k.install h night

theorem enterFirst (h : P u) : P (enterFirst u) := by
  rcases enterFirst_cases u with ⟨closed, o, -, he⟩ | ⟨closed, p, -, -, he⟩ <;> rw [he] <;>
    exact k.congr h ⟨rfl, rfl, rfl⟩

theorem setTime (h : P u) (p : Port) (t : Nat) : P (setTime p t u) := by
  unfold Machine.setTime
  split
  · exact k.fireDue (k.appended (by exact k.congr h ⟨rfl, rfl, rfl⟩) _ _ _ _)
  · unfold setTimeInvalid
    dsimp only
    split
    · exact k.appended (by exact k.congr h ⟨rfl, rfl, rfl⟩) _ _ _ _
    all_goals
      exact k.fireDue (k.appended (k.installNow (k.enterFirst (by exact k.congr h ⟨rfl, rfl, rfl⟩))) _ _ _ _)

theorem tick (h : P u) : P (tick u) := by
  unfold Machine.tick
  split
  · exact k.fireDue (k.congr h ⟨rfl, rfl, rfl⟩)
  · unfold rangeEnd
    dsimp only
    split
    · exact k.installNow (k.congr h ⟨rfl, rfl, rfl⟩)
    all_goals exact k.congr h ⟨rfl, rfl, rfl⟩

theorem settlementEnd (h : P u) : P (settlementEndEvent u) := by
  have settled (p : NightPlan) : P (settledState p u) := by
    refine k.install (k.congr h ⟨?_, ?_, ?_⟩) _
    · rw [expireSuspensions_keeps State.config _ (fun _ _ => rfl) (fun u => u.append_config)]
      exact updateMeters_keeps State.config _ (fun _ _ => rfl) (fun u => u.append_config) _
    · rw [expireSuspensions_keeps State.districts _ (fun _ _ => rfl) (fun u => u.append_districts)]
      exact updateMeters_keeps State.districts _ (fun _ _ => rfl) (fun u => u.append_districts) _
    · rw [expireSuspensions_keeps State.history _ (fun _ _ => rfl) (fun u => u.append_history)]
      exact updateMeters_keeps State.history _ (fun _ _ => rfl) (fun u => u.append_history) _
  unfold settlementEndEvent
  split
  · rename_i p _ _
    rw [endSettlement_eq]
    refine k.fireDue ?_
    unfold planAfter
    split
    · exact k.congr (settled p) ⟨rfl, rfl, rfl⟩
    · split
      · exact k.enterFirst (k.congr (settled p) ⟨rfl, rfl, rfl⟩)
      · exact k.congr (settled p) ⟨rfl, rfl, rfl⟩
  · exact h

theorem enterStartUp (h : P u) : P (enterStartUp u) := by
  rcases enterStartUp_cases u with ⟨-, he⟩ | ⟨-, ⟨closed, o, -, he⟩ | ⟨closed, p, -, -, -, -, he⟩⟩ <;> rw [he]
  · exact k.congr h ⟨rfl, rfl, rfl⟩
  · exact k.congr h ⟨rfl, rfl, rfl⟩
  · unfold reenterNight
    rw [enterNight_eq]
    exact k.congr h ⟨rfl, rfl, rfl⟩

theorem startUp (h : P u) : P (Machine.fireDue (Machine.installNow (appendBackupLow u))) := by
  refine k.fireDue (k.installNow ?_)
  unfold appendBackupLow
  split
  · exact k.appended h _ _ _ _
  · exact h

end RecordsKept

/-- What holds of the records before an effect and is kept by each of their updates holds after it. -/
theorem Effect.records (he : Effect i s u) (h : P s) (k : RecordsKept s P) : P u := by
  cases he with
  | nothing => exact h
  | values p m e x vs => exact k.congr h (takeValues_frame p m e x vs s).sameRecords
  | setsTime p t => exact k.setTime h p t
  | opensHold p role free => exact k.opens p role free
  | edits hold edit c held known made => exact k.edits hold edit c held known made
  | countsHold hold n held small => exact k.counts hold n held small
  | discards => exact k.discards
  | dropsHold hold cause => exact k.appended k.discards _ _ _ _
  | commits p hold _ held passed => exact k.fireDue (k.installNow (k.commits p hold held passed))
  | suspends m x =>
    unfold markSuspended
    split <;> exact k.congr h ⟨rfl, rfl, rfl⟩
  | acks p d e r a found alarm record =>
    exact k.appended (k.acks d e r a found alarm record) _ _ _ _
  | rebases d e r date b found newest => exact k.rebases d e r date b found newest
  | relearns d e r found => exact k.relearns d e r found
  | resumes | readsEvents | setsLatch | backupReturns => exact k.congr h ⟨rfl, rfl, rfl⟩
  | setsRules rules => exact k.fireDue (k.replan (k.congr h ⟨rfl, rfl, rfl⟩))
  | ticks => exact k.tick h
  | fires => exact k.fireDue h
  | infills =>
    rcases infillEvent_cases s with hu | ⟨run, -, hu⟩ <;> rw [hu] <;> exact k.congr h ⟨rfl, rfl, rfl⟩
  | handsOver =>
    rcases handOverEvent_cases s with hu | ⟨run, d, rest, -, -, hu | ⟨e, r, found, fresh, hu⟩⟩ <;> rw [hu]
    · exact h
    · exact k.congr h ⟨rfl, rfl, rfl⟩
    · rw [judgeAndRecord_eq]
      exact k.congr (k.judges { run with remaining := rest } d e r found fresh) ⟨rfl, rfl, rfl⟩
  | completes =>
    rcases completeEvent_cases s with hu | ⟨run, -, hu⟩ <;> rw [hu]
    · exact h
    · exact k.congr (k.appended h .nightSettled 0 run.date (settledDetail run)) ⟨rfl, rfl, rfl⟩
  | settles => exact k.settlementEnd h
  | takesHeld d => exact k.takeHeld h d
  | powersUp b =>
    refine k.startUp ?_
    have entered : P (Machine.enterStartUp (startMain (judgeRetention b s))) := by
      refine k.enterStartUp ?_
      unfold judgeRetention
      split
      · exact k.congr k.lapses ⟨rfl, rfl, rfl⟩
      · exact k.empties (s.setRetention _) (k.congr h ⟨rfl, rfl, rfl⟩)
    split
    · exact k.appended entered _ _ _ _
    · exact entered
  | resets => exact k.startUp (k.enterStartUp (k.empties _ (k.congr h ⟨rfl, rfl, rfl⟩)))
  | losesPower => exact k.congr (k.empties _ (k.congr h ⟨rfl, rfl, rfl⟩)) ⟨rfl, rfl, rfl⟩
  | backupFalls =>
    unfold Machine.backupFalls
    split
    · unfold appendBackupLow
      split
      · exact k.appended (by exact k.congr h ⟨rfl, rfl, rfl⟩) _ _ _ _
      · exact k.congr h ⟨rfl, rfl, rfl⟩
    · exact h

/-- What holds of the records before a step and is kept by each of their updates holds after it. -/
theorem step_records (hstep : step s = .next t) (h : P s)
    (k : ∀ v, SameRecords s v → v.intake = s.intake → RecordsKept v P) : P t := by
  obtain ⟨x, u, y, effect, rfl, -, -⟩ := step_effect hstep
  have kept := k ({ s with pending := s.pending.tail }.setPorts x) ⟨rfl, rfl, rfl⟩ rfl
  exact kept.congr (effect.records (kept.congr h ⟨rfl, rfl, rfl⟩) kept) ⟨rfl, rfl, rfl⟩

end Sys2Proof.Machine
end

section
/-!
PROOFS. The records of the districts across their updates, and the law of the history (section 8.2).
-/

namespace Sys2Proof.Machine

variable {i : Option Instr} {s t u : State} {d : Nat} {e : DistrictEntry} {r r' : DistrictRuntime}

/-! ### Reading districts -/

/-- A district of the active set, its runtime the one it holds or the initial one. -/
theorem districtOf_eq_some_iff : districtOf s d = some (e, r) ↔
    tget s.config.active.districts d = some e ∧ r = (tget s.districts d).getD .initial := by
  unfold districtOf
  constructor
  · intro h
    obtain ⟨e', he, heq⟩ := Option.map_eq_some_iff.1 h
    obtain ⟨rfl, rfl⟩ := Prod.mk.inj heq
    exact ⟨he, rfl⟩
  · rintro ⟨he, rfl⟩
    rw [he]
    rfl

/-- The runtime that a district holds is the one it is read with. -/
theorem districtOf_runtime (h : districtOf s d = some (e, r)) (hr : tget s.districts d = some r') : r = r' := by
  obtain ⟨-, rfl⟩ := districtOf_eq_some_iff.1 h
  rw [hr]
  rfl

theorem ringOf_of_tget {h : Tbl (List NightRecord)} {l : List NightRecord} (hl : tget h d = some l) :
    ringOf h d = l := by
  rw [ringOf, hl]
  rfl

/-! ### The last settled night across the updates -/

theorem raiseBurst_lastSettled {night : Nat} {c : Option Cause} (h : raiseBurst night r = (r', c)) :
    r'.lastSettled = r.lastSettled ∧ r'.baseline = r.baseline := by
  unfold raiseBurst at h
  split at h <;> obtain ⟨rfl, -⟩ := Prod.mk.inj h <;> exact ⟨rfl, rfl⟩

theorem clampDistrict_lastSettled (e : DistrictEntry) (r : DistrictRuntime) :
    (clampDistrict e r).lastSettled = r.lastSettled ∧ (clampDistrict e r).baseline = r.baseline := by
  unfold clampDistrict
  dsimp only
  split
  · exact ⟨rfl, rfl⟩
  · split <;> exact ⟨rfl, rfl⟩
  all_goals exact ⟨rfl, rfl⟩

/-- What an installation can make of a district's runtime: reset, clamped or as it was where the district stays, and
initial where it does not. -/
theorem carryDistrict_cases (old new : ConfigSet) (runtime : Tbl DistrictRuntime) (d : Nat) (e : DistrictEntry) :
    (∃ o r, tget old.districts d = some o ∧ tget runtime d = some r ∧
      (carryDistrict old new runtime d e = resetDistrict r ∨
        (sameJudgement o e = false ∧ carryDistrict old new runtime d e = clampDistrict e r) ∨
        (sameJudgement o e = true ∧ carryDistrict old new runtime d e = r))) ∨
    ((tget old.districts d = none ∨ tget runtime d = none) ∧
      carryDistrict old new runtime d e = .initial) := by
  unfold carryDistrict
  split
  · rename_i o r ho hr
    refine .inl ⟨o, r, ho, hr, ?_⟩
    split
    · exact .inl rfl
    · split
      · rename_i other
        exact .inr (.inl ⟨by simpa using other, rfl⟩)
      · rename_i same
        exact .inr (.inr ⟨by simpa using same, rfl⟩)
  · rename_i missing
    refine .inr ⟨?_, rfl⟩
    cases ho : tget old.districts d with
    | none => exact .inl rfl
    | some o =>
      cases hr : tget runtime d with
      | none => exact .inr rfl
      | some r => exact absurd hr (missing o r ho)

theorem carryDistrict_lastSettled {old new : ConfigSet} {runtime : Tbl DistrictRuntime} {o : DistrictEntry}
    (ho : tget old.districts d = some o) (hr : tget runtime d = some r) (e : DistrictEntry) :
    (carryDistrict old new runtime d e).lastSettled = r.lastSettled := by
  rcases carryDistrict_cases old new runtime d e with
    ⟨o', r', -, hr', he | ⟨-, he⟩ | ⟨-, he⟩⟩ | ⟨ho' | hr', -⟩
  · obtain rfl := Option.some.inj (hr.symm.trans hr')
    rw [he]
    rfl
  · obtain rfl := Option.some.inj (hr.symm.trans hr')
    rw [he, (clampDistrict_lastSettled _ _).1]
  · obtain rfl := Option.some.inj (hr.symm.trans hr')
    rw [he]
  · rw [ho] at ho'
    cases ho'
  · rw [hr] at hr'
    cases hr'

theorem tget_carryDistricts (old new : ConfigSet) (runtime : Tbl DistrictRuntime) (d : Nat) :
    tget (carryDistricts old new runtime) d =
      (tget new.districts d).map (carryDistrict old new runtime d) :=
  tget_map (carryDistrict old new runtime) new.districts d

theorem tget_carryHistory (old new : ConfigSet) (h : Tbl (List NightRecord)) (d : Nat) :
    tget (carryHistory old new h) d =
      if (tget old.districts d).isSome && (tget new.districts d).isSome then tget h d else none :=
  tget_filter_key (fun k => (tget old.districts k).isSome && (tget new.districts k).isSome) h d

/-! ### The law of the history -/

/-- One district's ring under the law of the history, over the runtime that the district holds. -/
def RingLawful (ring : List NightRecord) (r : Option DistrictRuntime) : Prop :=
  ring.length ≤ 32 ∧ ring.Pairwise (fun x y => x.date < y.date) ∧
    ∀ x ∈ ring, ∃ r' n, r = some r' ∧ r'.lastSettled = some n ∧ x.date ≤ n

theorem historyLawful_iff : HistoryLawful s ↔ ∀ d, RingLawful (ringOf s.history d) (tget s.districts d) := Iff.rfl

theorem RingLawful.nil (r : Option DistrictRuntime) : RingLawful [] r :=
  ⟨Nat.zero_le _, List.Pairwise.nil, fun _ hx => absurd hx List.not_mem_nil⟩

/-- The ring of a district whose last settled night stays. -/
theorem RingLawful.congr {ring : List NightRecord} {x : Option DistrictRuntime} (h : RingLawful ring x)
    (hr : ∀ r, x = some r → r'.lastSettled = r.lastSettled) : RingLawful ring (some r') := by
  refine ⟨h.1, h.2.1, fun y hy => ?_⟩
  obtain ⟨r, n, rfl, hn, hle⟩ := h.2.2 y hy
  exact ⟨r', n, rfl, by rw [hr r rfl, hn], hle⟩

/-- A record later than every record of the ring joins it (R147). -/
theorem RingLawful.push {ring : List NightRecord} {x : Option DistrictRuntime} (h : RingLawful ring x)
    {new : NightRecord} (later : ∀ r, x = some r → alreadySettled new.date r = false)
    (settled : r'.lastSettled = some new.date) : RingLawful (pushRecord ring new) (some r') := by
  have before (y : NightRecord) (hy : y ∈ ring) : y.date < new.date := by
    obtain ⟨r, n, rfl, hn, hle⟩ := h.2.2 y hy
    have := later r rfl
    simp only [alreadySettled, hn, decide_eq_false_iff_not] at this
    omega
  have kept : ∀ kept : List NightRecord, kept.Sublist ring → kept.length ≤ 31 →
      RingLawful (kept ++ [new]) (some r') := by
    intro kept sub small
    refine ⟨by simp; omega, List.pairwise_append.2 ⟨h.2.1.sublist sub, List.pairwise_singleton _ _, ?_⟩, ?_⟩
    · intro y hy z hz
      rw [List.mem_singleton.1 hz]
      exact before y (sub.subset hy)
    · intro y hy
      refine ⟨r', new.date, rfl, settled, ?_⟩
      rcases List.mem_append.1 hy with hy | hy
      · exact (before y (sub.subset hy)).le
      · rw [List.mem_singleton.1 hy]
  unfold pushRecord
  split
  · rename_i room
    exact kept ring (List.Sublist.refl _) (by simp only [Config.ringCapacity] at room; omega)
  · have small := h.1
    exact kept (ring.drop 1) (List.drop_sublist 1 ring) (by simp; omega)

/-- A district's runtime is replaced by one of the same last settled night. -/
theorem HistoryLawful.setDistricts (h : HistoryLawful s)
    (hr : ∀ r, tget s.districts d = some r → r'.lastSettled = r.lastSettled) :
    HistoryLawful (s.setDistricts (tput s.districts d r')) := by
  intro k
  simp only [State.setDistricts_history, State.setDistricts_districts, tget_tput]
  split
  · rename_i hk
    subst hk
    exact RingLawful.congr (h k) hr
  · exact h k

theorem ringOf_tput (h : Tbl (List NightRecord)) (d k : Nat) (l : List NightRecord) :
    ringOf (tput h d l) k = if k = d then l else ringOf h k := by
  simp only [ringOf, tget_tput]
  split <;> rfl

theorem HistoryLawful.handedOver (h : HistoryLawful s) {run : Run} (found : districtOf s d = some (e, r))
    (fresh : alreadySettled run.date r = false) : HistoryLawful (handedOver run d e r s) := by
  intro k
  simp only [Machine.handedOver, tget_tput, ringOf_tput]
  split
  · rename_i hk
    subst hk
    refine RingLawful.push (h k) ?_ ?_
    · intro r0 hr0
      obtain rfl := districtOf_runtime found hr0
      unfold recordOf
      split <;> exact fresh
    · unfold recordOf
      split <;> rfl
  · exact h k

theorem HistoryLawful.adoptSet (h : HistoryLawful u) (pd : PendingSet) (night : Nat) :
    HistoryLawful (adoptSet pd night u) := by
  intro k
  simp only [Machine.adoptSet, ringOf, tget_carryHistory, tget_carryDistricts]
  split
  · rename_i stays
    obtain ⟨⟨o, ho⟩, ⟨e, he⟩⟩ : (∃ o, tget u.config.active.districts k = some o) ∧
        ∃ e, tget pd.config.districts k = some e := by
      simpa [Option.isSome_iff_exists] using stays
    rw [he]
    exact RingLawful.congr (h k) fun r hr => carryDistrict_lastSettled ho hr e
  · exact RingLawful.nil _

theorem recordsKept_history (h : HistoryLawful s) : RecordsKept s HistoryLawful where
  congr {u v} hu same := by
    intro d
    rw [same.history, same.districts]
    exact hu d
  opens _ _ _ := h
  edits _ _ _ _ _ _ := h
  counts _ _ _ _ := h
  discards := h
  commits _ _ _ _ := h
  acks d e r a found _ _ := h.setDistricts fun r0 hr0 => by rw [districtOf_runtime found hr0]
  rebases d e r date b found _ := h.setDistricts fun r0 hr0 => by
    rw [← districtOf_runtime found hr0]
    rfl
  relearns d e r found := h.setDistricts fun r0 hr0 => by
    rw [← districtOf_runtime found hr0]
    rfl
  judges run d e r found fresh := h.handedOver found fresh
  installs u pd night _ hu := hu.adoptSet pd night
  bursts u d r r' cause night found raised hu := hu.setDistricts fun r0 hr0 => by
    obtain rfl := Option.some.inj (found.symm.trans hr0)
    exact (raiseBurst_lastSettled raised).1
  empties _ _ := fun _ => RingLawful.nil _
  lapses := fun _ => RingLawful.nil _

theorem SameRecords.historyLawful (same : SameRecords s t) (h : HistoryLawful s) : HistoryLawful t :=
  (recordsKept_history h).congr h same

/-- Settles O53: each update of the records keeps the law. -/
theorem stepKeepsHistoryLaw : Obligations.StepKeepsHistoryLaw := by
  intro s t lawful hstep
  exact step_records hstep lawful fun v same _ => recordsKept_history (same.historyLawful lawful)

end Sys2Proof.Machine
end

section
/-!
PROOFS. The law of alarm states (section 5.1), with the ranges of the night counts that it rests on.
-/

namespace Sys2Proof.Machine

variable {i : Option Instr} {s t u : State} {d : Nat} {e o : DistrictEntry} {r r' : DistrictRuntime}
  {c c' : ConfigSet}

/-! ### The night counts -/

/-- The night counts of one district entry lie in their ranges. -/
def DistrictEntry.CountsInRange (e : DistrictEntry) : Prop :=
  1 ≤ e.confirmNights ∧ 1 ≤ e.clearNights ∧ 1 ≤ e.learnNights

theorem countsInRange_of_districtInRange (h : districtInRange e = true) : e.CountsInRange := by
  simp only [districtInRange, decide_eq_true_eq] at h
  exact ⟨by omega, by omega, by omega⟩

theorem ConfigSet.CountsInRange.tput (h : c.CountsInRange) (d : Nat) (he : e.CountsInRange) :
    ConfigSet.CountsInRange { c with districts := tput c.districts d e } := by
  intro k e' hk
  simp only [tget_tput] at hk
  split at hk
  · obtain rfl := Option.some.inj hk
    exact he
  · exact h k e' hk

theorem ConfigSet.CountsInRange.tdel (h : c.CountsInRange) (d : Nat) :
    ConfigSet.CountsInRange { c with districts := tdel c.districts d } := by
  intro k e' hk
  by_cases hkd : k = d
  · subst hkd
    simp at hk
  · rw [tget_tdel_ne _ _ _ hkd] at hk
    exact h k e' hk

/-- An edit of the staging set keeps the night counts in their ranges (R40). -/
theorem StagingEdit.countsInRange {edit : ConfigSet → Except Status ConfigSet} (known : StagingEdit edit)
    (made : edit c = .ok c') (h : c.CountsInRange) : c'.CountsInRange := by
  cases known with
  | meter payload =>
    unfold editMeterSet at made
    split at made
    · split at made
      · cases made
      · split at made <;> cases made
        exact h
    · cases made
  | meterDrop payload =>
    unfold dropMeterSet at made
    split at made
    · split at made
      · cases made
      · split at made <;> cases made
        exact h
    · cases made
  | dma payload =>
    unfold editDmaSet at made
    split at made
    · cases made
    · split at made
      · cases made
      · rename_i inRange
        cases made
        refine h.tput _ (countsInRange_of_districtInRange ?_)
        simp only [not_or, Bool.not_eq_true] at inRange
        simpa using inRange.2.2
  | dmaDrop payload =>
    unfold dropDmaSet at made
    split at made
    · split at made
      · cases made
      · split at made <;> cases made
        exact h.tdel _
    · cases made
  | night payload =>
    unfold editNightSet at made
    split at made
    · split at made <;> cases made
      exact h
    · cases made

/-! ### One district -/

theorem DistrictRuntime.Lawful.initial (he : e.CountsInRange) : DistrictRuntime.initial.Lawful e :=
  ⟨rfl, he.2.2, rfl, rfl⟩

theorem DistrictRuntime.Lawful.relearning (he : e.CountsInRange) (r : DistrictRuntime) :
    (relearning r).Lawful e :=
  ⟨rfl, he.2.2, rfl, rfl⟩

theorem DistrictRuntime.Lawful.rebased (b : Nat) (r : DistrictRuntime) : (rebased b r).Lawful e :=
  ⟨rfl, rfl, rfl, rfl, rfl⟩

/-- The law speaks of the alarm state, the baseline, the counts and the record alone. -/
theorem DistrictRuntime.Lawful.settledRuntime {night : Nat} {j : Judged} (h : j.runtime.Lawful e) :
    (settledRuntime night j).Lawful e := h

theorem DistrictRuntime.Lawful.acknowledged (h : r.Lawful e) (alarm : r.alarm = .leak) :
    DistrictRuntime.Lawful e { r with alarm := .standing } := by
  unfold DistrictRuntime.Lawful at h
  rw [alarm] at h
  exact h

theorem DistrictRuntime.Lawful.raiseBurst (h : r.Lawful e) (he : e.CountsInRange) {night : Nat} {cause : Cause}
    (raised : raiseBurst night r = (r', some cause)) : r'.Lawful e := by
  unfold Machine.raiseBurst at raised
  split at raised <;> cases raised <;> rename_i alarm <;> unfold DistrictRuntime.Lawful at h <;>
    rw [alarm] at h
  · exact ⟨h.1, rfl, rfl, rfl, he.2.1⟩
  · exact ⟨h.1, rfl, rfl, rfl, he.2.1⟩
  · exact ⟨h.1, rfl, h.2.2.1, h.2.2.2.1, he.2.1⟩

theorem clampCount_lt {limit : Nat} (h : 1 ≤ limit) (n : Nat) : clampCount limit n < limit := by
  unfold clampCount
  split <;> omega

theorem DistrictRuntime.Lawful.clampDistrict (h : r.Lawful o) (he : e.CountsInRange) :
    (clampDistrict e r).Lawful e := by
  unfold DistrictRuntime.Lawful at h
  unfold Machine.clampDistrict
  cases alarm : r.alarm <;> rw [alarm] at h <;> dsimp only at h ⊢
  case learning => simpa [DistrictRuntime.Lawful, alarm, h] using clampCount_lt he.2.2 _
  case quiet => simpa [DistrictRuntime.Lawful, alarm] using h
  case watch =>
    obtain ⟨baseline, record, learn, -, -, normal⟩ := h
    split
    · exact ⟨baseline, record, learn, rfl, normal⟩
    · rename_i some
      simpa [DistrictRuntime.Lawful, alarm, baseline, record, learn, normal] using
        ⟨Nat.pos_of_ne_zero some, clampCount_lt he.1 _⟩
  case leak => simpa [DistrictRuntime.Lawful, alarm, h] using clampCount_lt he.2.1 _
  case standing => simpa [DistrictRuntime.Lawful, alarm, h] using clampCount_lt he.2.1 _

/-- An entry that agrees in the judgement fields has the same law. -/
theorem DistrictRuntime.Lawful.sameJudgement (h : r.Lawful o) (same : sameJudgement o e = true) : r.Lawful e := by
  simp only [Machine.sameJudgement, decide_eq_true_eq] at same
  obtain ⟨-, -, confirm, clear, learn, -⟩ := same
  unfold DistrictRuntime.Lawful at h ⊢
  rw [← confirm, ← clear, ← learn]
  exact h

theorem DistrictRuntime.Lawful.carryDistrict {old new : ConfigSet} {runtime : Tbl DistrictRuntime}
    (h : ∀ o r, tget old.districts d = some o → tget runtime d = some r → r.Lawful o) (he : e.CountsInRange) :
    (carryDistrict old new runtime d e).Lawful e := by
  rcases carryDistrict_cases old new runtime d e with
    ⟨o, r, ho, hr, hc | ⟨-, hc⟩ | ⟨same, hc⟩⟩ | ⟨-, hc⟩ <;> rw [hc]
  · exact .relearning he r
  · exact (h o r ho hr).clampDistrict he
  · exact (h o r ho hr).sameJudgement same
  · exact .initial he

/-! ### The judgement -/

section Judgement

variable {night lnorm b : Nat}

theorem judgeLearning_lawful (alarm : r.alarm = .learning) (h : r.Lawful e) :
    (judgeLearning e lnorm r).runtime.Lawful e := by
  unfold DistrictRuntime.Lawful at h
  rw [alarm] at h
  obtain ⟨record, -, high, normal⟩ := h
  unfold judgeLearning
  dsimp only
  split
  · exact ⟨rfl, record, rfl, high, normal⟩
  · simp only [DistrictRuntime.Lawful, alarm]
    exact ⟨record, by omega, high, normal⟩

theorem raiseByNights_lawful (baseline : r.baseline.isSome) (learn : r.learnCount = 0)
    (normal : r.normalCount = 0) (he : e.CountsInRange) :
    (raiseByNights night r).runtime.Lawful e :=
  ⟨baseline, rfl, learn, rfl, Nat.lt_of_le_of_lt normal.le he.2.1⟩

theorem judgeQuiet_lawful (alarm : r.alarm = .quiet) (h : r.Lawful e) (he : e.CountsInRange) :
    (judgeQuiet night e b lnorm r).runtime.Lawful e := by
  unfold DistrictRuntime.Lawful at h
  rw [alarm] at h
  obtain ⟨baseline, record, learn, high, normal⟩ := h
  unfold judgeQuiet
  split
  · split
    · exact raiseByNights_lawful baseline learn normal he
    · exact ⟨baseline, record, learn, le_refl 1, by show 1 < _; omega, normal⟩
  · simp only [DistrictRuntime.Lawful, alarm]
    exact ⟨rfl, record, learn, high, normal⟩

theorem judgeWatch_lawful (alarm : r.alarm = .watch) (h : r.Lawful e) (he : e.CountsInRange) :
    (judgeWatch night e b lnorm r).runtime.Lawful e := by
  unfold DistrictRuntime.Lawful at h
  rw [alarm] at h
  obtain ⟨baseline, record, learn, high, -, normal⟩ := h
  unfold judgeWatch
  split
  · split
    · exact raiseByNights_lawful baseline learn normal he
    · simp only [DistrictRuntime.Lawful, alarm]
      exact ⟨baseline, record, learn, by omega, by omega, normal⟩
  · exact ⟨rfl, record, learn, rfl, normal⟩

theorem judgeRaised_lawful {cleared : EventKind} (alarm : r.alarm = .leak ∨ r.alarm = .standing)
    (h : r.Lawful e) (he : e.CountsInRange) : (judgeRaised cleared e b lnorm r).runtime.Lawful e := by
  have parts : r.baseline.isSome ∧ r.record.isSome ∧ r.learnCount = 0 ∧ r.highCount = 0 ∧
      r.normalCount < e.clearNights := by
    rcases alarm with alarm | alarm <;> simpa [DistrictRuntime.Lawful, alarm] using h
  obtain ⟨baseline, record, learn, high, normal⟩ := parts
  unfold judgeRaised
  split
  · rcases alarm with alarm | alarm <;> simp only [DistrictRuntime.Lawful, alarm] <;>
      exact ⟨baseline, record, learn, high, he.2.1⟩
  · split
    · exact ⟨baseline, rfl, learn, high, rfl⟩
    · rcases alarm with alarm | alarm <;> simp only [DistrictRuntime.Lawful, alarm] <;>
        exact ⟨baseline, record, learn, high, by omega⟩

theorem judgeAssessed_lawful (h : r.Lawful e) (he : e.CountsInRange) :
    (judgeAssessed night e lnorm r).runtime.Lawful e := by
  unfold judgeAssessed
  cases alarm : r.alarm with
  | learning => exact judgeLearning_lawful alarm h
  | quiet => exact judgeQuiet_lawful alarm h he
  | watch => exact judgeWatch_lawful alarm h he
  | leak => exact judgeRaised_lawful (.inl alarm) h he
  | standing => exact judgeRaised_lawful (.inr alarm) h he

theorem judgeResult_lawful (x : Reason ⊕ Figures) (h : r.Lawful e) (he : e.CountsInRange) :
    (judgeResult night e x r).runtime.Lawful e := by
  cases x with
  | inl reason => exact h
  | inr f => exact judgeAssessed_lawful h he

end Judgement

/-! ### The whole table -/

/-- A district of the active set has its counts in range and, as it is read, a lawful runtime. -/
theorem AlarmsLawful.found (h : AlarmsLawful s) (hd : districtOf s d = some (e, r)) :
    e.CountsInRange ∧ r.Lawful e := by
  obtain ⟨he, hr⟩ := districtOf_eq_some_iff.1 hd
  have counts : e.CountsInRange := h.1 d e he
  refine ⟨counts, ?_⟩
  cases hr' : tget s.districts d with
  | none =>
    rw [hr, hr']
    exact .initial counts
  | some r0 =>
    obtain rfl := districtOf_runtime hd hr'
    exact h.2.2.2 d e r he hr'

/-- A lawful runtime is written. -/
theorem AlarmsLawful.setDistricts (h : AlarmsLawful s)
    (hr : ∀ e, tget s.config.active.districts d = some e → r'.Lawful e) :
    AlarmsLawful (s.setDistricts (tput s.districts d r')) := by
  refine ⟨h.1, h.2.1, h.2.2.1, fun k e r he hk => ?_⟩
  simp only [State.setDistricts_districts, tget_tput] at hk
  split at hk
  · rename_i hkd
    subst hkd
    obtain rfl := Option.some.inj hk
    exact hr e he
  · exact h.2.2.2 k e r he hk

/-- A lawful runtime is written for a district as it is read. -/
theorem AlarmsLawful.setFound (h : AlarmsLawful s) (hd : districtOf s d = some (e, r)) (hr : r'.Lawful e) :
    AlarmsLawful (s.setDistricts (tput s.districts d r')) := by
  refine h.setDistricts fun e' he' => ?_
  obtain rfl := Option.some.inj ((districtOf_eq_some_iff.1 hd).1.symm.trans he')
  exact hr

theorem AlarmsLawful.stagingSource (h : AlarmsLawful s) : (stagingSource s.config).CountsInRange := by
  unfold Machine.stagingSource
  split
  · rename_i pd hp
    exact h.2.1 pd hp
  · exact h.1

theorem AlarmsLawful.setHold (h : AlarmsLawful s) {x : Option Hold} (hx : ∀ y ∈ x, y.staging.CountsInRange) :
    AlarmsLawful (s.setHold x) := ⟨h.1, h.2.1, hx, h.2.2.2⟩

theorem AlarmsLawful.adoptSet {pd : PendingSet} (h : AlarmsLawful u) (hp : u.config.pending = some pd)
    (night : Nat) : AlarmsLawful (adoptSet pd night u) := by
  have counts := h.2.1 pd hp
  refine ⟨counts, nofun, h.2.2.1, fun k e r he hk => ?_⟩
  simp only [Machine.adoptSet, tget_carryDistricts] at hk he
  rw [he] at hk
  obtain rfl := Option.some.inj hk
  exact .carryDistrict (h.2.2.2 k) (counts k e he)

theorem recordsKept_alarms (h : AlarmsLawful s) : RecordsKept s AlarmsLawful where
  congr {u v} hu same := by
    unfold AlarmsLawful
    rw [same.config, same.districts]
    exact hu
  opens p _ _ := h.setHold fun y hy => by
    obtain rfl := Option.some.inj hy
    exact h.stagingSource
  edits hold edit c held known made := h.setHold fun y hy => by
    obtain rfl := Option.some.inj hy
    exact known.countsInRange made (h.2.2.1 hold held)
  counts hold n held _ := h.setHold fun y hy => by
    obtain rfl := Option.some.inj hy
    exact h.2.2.1 hold held
  discards := h.setHold nofun
  commits p hold held _ := ⟨h.1, fun pd hpd => by
    obtain rfl := Option.some.inj hpd
    exact h.2.2.1 hold held, nofun, h.2.2.2⟩
  acks d e r a found alarm _ := h.setFound found ((h.found found).2.acknowledged alarm)
  rebases d e r date b found _ := h.setFound found (.rebased b r)
  relearns d e r found := h.setFound found (.relearning (h.found found).1 r)
  judges run d e r found _ := by
    obtain ⟨counts, lawful⟩ := h.found found
    exact h.setFound found (judgeResult_lawful _ lawful counts).settledRuntime
  installs u pd night hp hu := hu.adoptSet hp night
  bursts u d r r' cause night found raised hu := hu.setDistricts fun e he =>
    (hu.2.2.2 d e r he found).raiseBurst (hu.1 d e he) raised
  empties u hu := ⟨hu.1, hu.2.1, nofun, hu.2.2.2⟩
  lapses := ⟨nofun, nofun, nofun, nofun⟩

theorem SameRecords.alarmsLawful (same : SameRecords s t) (h : AlarmsLawful s) : AlarmsLawful t :=
  (recordsKept_alarms h).congr h same

/-- Settles O54: each update of the records keeps the law. -/
theorem stepKeepsAlarmLaw : Obligations.StepKeepsAlarmLaw := by
  intro s t lawful hstep
  exact step_records hstep lawful fun v same _ => recordsKept_alarms (same.alarmsLawful lawful)

end Sys2Proof.Machine
end

section
/-!
PROOFS. The law of the active set (section 2.5) and of the night's configuration (section 2.6): a set that passes the
commit checks has the properties of the law, and no command installs one between window start and settlement end.
-/

namespace Sys2Proof.Machine

variable {i : Option Instr} {s t u : State} {c : ConfigSet}

/-! ### A set that passes the checks (R47) -/

/-- No record of a table fails a check for which it has no first failing record. -/
theorem firstFailing_eq_none {α : Type} {t : Tbl α} {fails : Nat → α → Bool} :
    firstFailing t fails = none ↔ ∀ x ∈ t, fails x.1 x.2 = false := by
  simp [firstFailing]

/-- Two different members of a list that pass a test make its count at least 2. -/
theorem two_le_countP {α : Type} {l : List α} {p : α → Bool} {x y : α} (hx : x ∈ l) (hy : y ∈ l) (hne : x ≠ y)
    (px : p x = true) (py : p y = true) : 2 ≤ l.countP p := by
  have sub : [x, y] ⊆ l.filter p := by
    intro z hz
    rcases List.mem_pair.1 hz with rfl | rfl
    · exact List.mem_filter.2 ⟨hx, px⟩
    · exact List.mem_filter.2 ⟨hy, py⟩
  rw [List.countP_eq_length_filter]
  exact (List.subperm_of_subset (by simpa using hne) sub).length_le

/-- The six checks that a set passes (R47). -/
structure ConfigSet.Passes (c : ConfigSet) : Prop where
  noClash : ∀ x ∈ c.meters, clashes c x.1 x.2 = false
  noEmpty : ∀ x ∈ c.districts, namesEmpty c x.2 = false
  rightKind : ∀ x ∈ c.districts, wrongKind c x.2 = false
  goodTerms : ∀ x ∈ c.districts, badTerms x.2 = false
  noOveruse : ∀ x ∈ c.meters, overused c x.1 = false
  pool : slotsUsed c ≤ 384

theorem passes_of_validate (h : validate c = none) : c.Passes := by
  unfold validate at h
  repeat' split at h
  all_goals cases h
  rename_i h1 _ h2 _ h3 _ h4 _ h5 hp
  exact ⟨firstFailing_eq_none.1 h1, firstFailing_eq_none.1 h2, firstFailing_eq_none.1 h3,
    firstFailing_eq_none.1 h4, firstFailing_eq_none.1 h5, Nat.le_of_not_lt hp⟩

namespace ConfigSet.Passes

variable (h : c.Passes) {x y : Nat × DistrictEntry} (hx : x ∈ c.districts)
include h

theorem address {x y : Nat × MeterEntry} (hx : x ∈ c.meters) (hy : y ∈ c.meters)
    (same : x.2.address = y.2.address) : x.1 = y.1 := by
  have clash {x y : Nat × MeterEntry} (hx : x ∈ c.meters) (hy : y ∈ c.meters)
      (same : y.2.address = x.2.address) : ¬ y.1 < x.1 := by
    have := h.noClash x hx
    simp only [clashes, List.any_eq_false, decide_eq_true_eq, not_and] at this
    exact fun hlt => this y hy hlt same
  have := clash hx hy same.symm
  have := clash hy hx same
  omega

include hx

theorem term {y : Term} (hy : y ∈ x.2.terms) :
    ∃ e w, tget c.meters y.meter = some e ∧ e.kind = .flow w := by
  have present := h.noEmpty x hx
  have kind := h.rightKind x hx
  simp only [namesEmpty, Bool.or_eq_false_iff, List.any_eq_false] at present
  simp only [wrongKind, Bool.or_eq_false_iff, List.any_eq_false] at kind
  have present := present.1 y hy
  have kind := kind.1 y hy
  cases he : tget c.meters y.meter with
  | none => simp [he] at present
  | some e =>
    cases hk : e.kind with
    | flow w => exact ⟨e, w, rfl, hk⟩
    | pressure => simp [holdsPressure, he, hk] at kind

theorem point {m : Nat} (hm : x.2.pressurePoint = some m) :
    ∃ e, tget c.meters m = some e ∧ e.kind = .pressure := by
  have present := h.noEmpty x hx
  have kind := h.rightKind x hx
  simp only [namesEmpty, hm, Bool.or_eq_false_iff, Option.any_some] at present
  simp only [wrongKind, hm, Bool.or_eq_false_iff, Option.any_some] at kind
  cases he : tget c.meters m with
  | none => simp [he] at present
  | some e =>
    cases hk : e.kind with
    | pressure => exact ⟨e, rfl, hk⟩
    | flow w => simp [holdsFlow, he, hk] at kind

theorem terms : 1 ≤ x.2.terms.length ∧ x.2.terms.length ≤ 8 ∧ ∃ y ∈ x.2.terms, y.sign = .inlet := by
  have good := h.goodTerms x hx
  simp only [badTerms, Bool.or_eq_false_iff, Bool.not_eq_false', List.any_eq_true, decide_eq_true_eq,
    decide_eq_false_iff_not, not_or, Nat.not_lt] at good
  exact ⟨good.2.1, good.2.2, good.1⟩

/-- No meter of a term is used too often. -/
theorem use {y : Term} (hy : y ∈ x.2.terms) : overused c y.meter = false := by
  obtain ⟨e, w, he, -⟩ := h.term hx hy
  exact h.noOveruse _ (mem_of_tget he)

theorem nodup : (x.2.terms.map Term.meter).Nodup := by
  rw [List.nodup_iff_count_le_one]
  intro m
  by_contra twice
  obtain ⟨y, hy, rfl⟩ : ∃ y ∈ x.2.terms, y.meter = m := by
    simpa using List.count_pos_iff.1 (show 0 < (x.2.terms.map Term.meter).count m by omega)
  have := h.use hx hy
  simp only [overused, Bool.or_eq_false_iff, List.any_eq_false, decide_eq_true_eq] at this
  refine this.1.1.1 x hx ?_
  rw [List.count_eq_countP, List.countP_map] at twice
  refine le_trans (Nat.lt_of_not_le twice) (List.countP_mono_left fun z _ hz => ?_)
  simpa using hz

theorem sign (hy : y ∈ c.districts) (hne : x.1 ≠ y.1) {a b : Term} (ha : a ∈ x.2.terms) (hb : b ∈ y.2.terms)
    (same : a.meter = b.meter) : a.sign ≠ b.sign := by
  intro hs
  have hab : a = b := by
    cases a
    cases b
    simp_all
  subst hab
  have use := h.use hx ha
  have twice : 2 ≤ districtsWith c (fun z => decide (z = a)) :=
    two_le_countP hx hy (fun hxy => hne (congrArg Prod.fst hxy))
      (List.any_eq_true.2 ⟨a, ha, by simp⟩) (List.any_eq_true.2 ⟨a, hb, by simp⟩)
  simp only [overused, Bool.or_eq_false_iff, decide_eq_false_iff_not] at use
  obtain ⟨m, sign⟩ := a
  cases sign with
  | inlet => exact use.1.2 twice
  | outlet => exact use.2 twice

end ConfigSet.Passes

/-- A set that passes the checks has the properties of the law of the active set (R47). -/
theorem ConfigSet.Passes.lawful (h : c.Passes) : c.Lawful :=
  ⟨fun _ hx _ hy => h.address hx hy,
    fun _ hx => ⟨fun _ hy => h.term hx hy, fun _ hm => h.point hx hm, (h.terms hx).1, (h.terms hx).2.1,
      (h.terms hx).2.2, h.nodup hx⟩,
    fun _ hx _ hy hne _ ha _ hb => h.sign hx hy hne ha hb, h.pool⟩

theorem lapsed_lawful : ConfigSet.lapsed.Lawful :=
  ⟨nofun, nofun, nofun, Nat.zero_le _⟩

/-! ### The law across the updates -/

theorem recordsKept_sets (h : SetsLawful s) : RecordsKept s SetsLawful where
  congr {u v} hu same := by
    unfold SetsLawful
    rw [same.config]
    exact hu
  opens _ _ _ := h
  edits _ _ _ _ _ _ := h
  counts _ _ _ _ := h
  discards := h
  commits p hold held passed := ⟨h.1, fun pd hpd => by
    obtain rfl := Option.some.inj hpd
    exact (passes_of_validate passed).lawful⟩
  acks _ _ _ _ _ _ _ := h
  rebases _ _ _ _ _ _ _ := h
  relearns _ _ _ _ := h
  judges _ _ _ _ _ _ := h
  installs u pd night hp hu := ⟨hu.2 pd hp, nofun⟩
  bursts _ _ _ _ _ _ _ _ hu := hu
  empties _ hu := hu
  lapses := ⟨lapsed_lawful, nofun⟩

/-! ### The night's configuration -/

/-- The two states have the same active set with the same generation. -/
def SameSet (s t : State) : Prop :=
  t.config.active = s.config.active ∧ t.config.generation = s.config.generation

theorem SameSet.ofConfig (h : t.config = s.config) : SameSet s t := by
  unfold SameSet
  rw [h]
  exact ⟨rfl, rfl⟩

/-- A night is current: OPEN, GRACE or SETTLING. -/
def NightCurrent (c : NightCycle) : Prop := ∃ n, c = .opened n ∨ c = .grace n ∨ c = .settling n

theorem NightCurrent.not_installPhase {c : NightCycle} (h : NightCurrent c) : installPhase c = false := by
  obtain ⟨n, rfl | rfl | rfl⟩ := h <;> rfl

theorem installNow_of_current (h : NightCurrent s.calendar.cycle) : installNow s = s := by
  unfold installNow
  rw [h.not_installPhase]
  rfl

theorem setTime_sameSet (h : CycleLawful s) (current : NightCurrent s.calendar.cycle) (p : Port) (t : Nat)
    (on : s.retention.powered = true) : SameSet s (setTime p t s) := by
  unfold setTime
  split
  · exact .ofConfig ((fireDue_frame _).config.trans (State.append_config _ _ _ _ _))
  · rename_i invalid
    have fits := h.2.2.1 on
    obtain ⟨n, hc | hc | hc⟩ := current <;> rw [hc] at fits
    · exact absurd fits invalid
    · exact absurd fits invalid
    · unfold setTimeInvalid
      rw [hc]
      exact .ofConfig (State.append_config _ _ _ _ _)

theorem tick_sameSet (current : NightCurrent s.calendar.cycle) : SameSet s (tick s) := by
  unfold tick
  split
  · exact .ofConfig (fireDue_frame _).config
  · unfold rangeEnd
    obtain ⟨n, hc | hc | hc⟩ := current <;> rw [hc] <;> exact ⟨rfl, rfl⟩

/-- While a night is current, only its settlement end and the reset line can change the active set. -/
theorem Effect.sameSet (he : Effect i s u) (h : CycleLawful s) (current : NightCurrent s.calendar.cycle)
    (notSettled : i = some .settlementEnd → settlementEndEvent s = s) (notReset : i ≠ some .resetLine) :
    SameSet s u := by
  cases he with
  | nothing | opensHold | edits | countsHold | discards | resumes | rebases | relearns | readsEvents
  | setsLatch | backupReturns | losesPower => exact ⟨rfl, rfl⟩
  | values p m e x vs => exact .ofConfig (takeValues_frame p m e x vs s).config
  | setsTime p t on => exact setTime_sameSet h current p t on
  | dropsHold hold cause =>
    have kept := State.append_config (s.setHold none) .stagingDropped (portCode hold.port) (eventNight s) cause
    exact ⟨(congrArg ConfigStore.active kept).trans rfl, (congrArg ConfigStore.generation kept).trans rfl⟩
  | commits p hold =>
    unfold commitSet
    rw [installNow_of_current (by exact current)]
    have kept := (fireDue_frame
      (s.setConfig { s.config with pending := some ⟨hold.staging, p⟩, hold := none })).config
    exact ⟨(congrArg ConfigStore.active kept).trans rfl, (congrArg ConfigStore.generation kept).trans rfl⟩
  | suspends m x =>
    unfold markSuspended
    split <;> exact ⟨rfl, rfl⟩
  | acks => exact .ofConfig (State.append_config _ _ _ _ _)
  | setsRules rules =>
    refine .ofConfig ((fireDue_frame _).config.trans ?_)
    rw [replan_frame]
    rfl
  | ticks => exact tick_sameSet current
  | fires => exact .ofConfig (fireDue_frame s).config
  | infills => rcases infillEvent_cases s with hu | ⟨run, -, hu⟩ <;> rw [hu] <;> exact ⟨rfl, rfl⟩
  | handsOver =>
    rcases handOverEvent_cases s with hu | ⟨run, d, rest, -, -, hu | ⟨e, r, -, -, hu⟩⟩ <;> rw [hu]
    · exact ⟨rfl, rfl⟩
    · exact ⟨rfl, rfl⟩
    · rw [judgeAndRecord_eq]
      exact ⟨rfl, rfl⟩
  | completes =>
    rcases completeEvent_cases s with hu | ⟨run, -, hu⟩ <;> rw [hu]
    · exact ⟨rfl, rfl⟩
    · exact .ofConfig (State.append_config s .nightSettled 0 run.date (settledDetail run))
  | settles _ taken =>
    rw [notSettled taken]
    exact ⟨rfl, rfl⟩
  | takesHeld d => exact .ofConfig (takeHeld_keeps d s).2.2.1
  | powersUp b off =>
    obtain ⟨n, hc⟩ := current
    rw [h.2.2.2 off] at hc
    simp at hc
  | resets _ taken => exact absurd taken notReset
  | backupFalls =>
    unfold Machine.backupFalls
    split
    · unfold appendBackupLow
      split
      · exact .ofConfig (State.append_config _ _ _ _ _)
      · exact ⟨rfl, rfl⟩
    · exact ⟨rfl, rfl⟩

/-- Settles O55: each update of the records keeps the law of the sets, and no update installs a set while a night is
current. -/
theorem stepKeepsActiveSetLaw : Obligations.StepKeepsActiveSetLaw := by
  intro s t hstep
  refine ⟨fun lawful => step_records hstep lawful fun v same _ => recordsKept_sets ?_, ?_⟩
  · unfold SetsLawful
    rw [same.config]
    exact lawful
  intro n lawful current notSettled notReset
  obtain ⟨x, u, y, effect, rfl, -, -⟩ := step_effect hstep
  refine effect.sameSet (by exact lawful) ⟨n, current⟩ ?_ ?_
  · intro taken
    obtain ⟨rest, hp⟩ := List.head?_eq_some_iff.1 taken
    unfold settlementEndEvent
    rcases notSettled rest hp with other | running
    · split
      · rename_i p hc _
        rcases current with hn | hn | hn
        · rw [show s.calendar.cycle = _ from hc] at hn
          cases hn
        · rw [show s.calendar.cycle = _ from hc] at hn
          cases hn
        · exact absurd hn other
      · rfl
    · split
      · rename_i hr
        exact absurd hr running
      · rfl
  · intro taken
    obtain ⟨rest, hp⟩ := List.head?_eq_some_iff.1 taken
    exact notReset rest hp

end Sys2Proof.Machine
end

section
/-!
PROOFS. Volumes, net flows and hour sums with their range (sections 1.1, 4.4 and 6.2), and the normalisation bound
(section 4.6).
-/

namespace Sys2Proof.Machine

variable {s : State} {usable : Slot → Option Nat} {meters : Tbl MeterEntry} {store : Tbl Slot} {terms : List Term}
  {m k v j : Nat}

/-! ### Usable slots and volumes (R2, R88, R128) -/

theorem availableValue_eq_some {slot : Slot} :
    availableValue slot = some v ↔ slot = .filled v ∨ slot = .estimated v := by
  cases slot <;> simp [availableValue]

theorem filledValue_eq_some {slot : Slot} : filledValue slot = some v ↔ slot = .filled v := by
  cases slot <;> simp [filledValue]

theorem pulseLitres_le (code : Nat) : pulseLitres code ≤ 100 := by
  unfold pulseLitres
  split <;> omega

theorem pulseLitres_of_getElem {code litres : Nat} (h : ([1, 2, 5, 10, 20, 50, 100] : List Nat)[code]? = some litres) :
    pulseLitres code = litres := by
  obtain ⟨small, rfl⟩ := List.getElem?_eq_some_iff.1 h
  simp only [List.length_cons, List.length_nil] at small
  interval_cases code <;> rfl

theorem meterWeight_eq_some {w : Nat} : meterWeight meters m = some w ↔
    ∃ e code, tget meters m = some e ∧ e.kind = .flow code ∧ w = pulseLitres code := by
  unfold meterWeight
  cases he : tget meters m with
  | none => simp
  | some e => cases hk : e.kind <;> simp [hk, eq_comm]

/-- A slot gives a volume where it is usable and its meter a FLOW meter. -/
theorem volume_eq_some : volume usable meters store m k = some v ↔
    ∃ value w, usable (slotAt store m k) = some value ∧ meterWeight meters m = some w ∧ v = value * w := by
  unfold volume
  cases usable (slotAt store m k) <;> cases meterWeight meters m <;> simp [eq_comm]

theorem volume_le (small : ∀ m k value, usable (slotAt store m k) = some value → value ≤ 65534)
    (h : volume usable meters store m k = some v) : v ≤ 6553400 := by
  obtain ⟨value, w, hv, hw, rfl⟩ := volume_eq_some.1 h
  obtain ⟨e, code, -, -, rfl⟩ := meterWeight_eq_some.1 hw
  calc value * pulseLitres code ≤ 65534 * 100 := Nat.mul_le_mul (small m k value hv) (pulseLitres_le code)
    _ = 6553400 := by norm_num

/-! ### Net flows (R89) -/

/-- The sum of a figure over the terms of one sign. -/
def signSum (terms : List Term) (sign : Sign) (v : Term → Nat) : Int :=
  (((terms.filter (fun x => x.sign = sign)).map v).sum : Nat)

theorem signSum_cons (x : Term) (terms : List Term) (v : Term → Nat) :
    signSum (x :: terms) .inlet v - signSum (x :: terms) .outlet v =
      signed x.sign (v x) + (signSum terms .inlet v - signSum terms .outlet v) := by
  cases hx : x.sign <;> simp [signSum, hx, signed] <;> omega

theorem netFlow_cons_eq_some {x : Term} {n : Int} : netFlow usable meters store (x :: terms) k = some n ↔
    ∃ v n', volume usable meters store x.meter k = some v ∧ netFlow usable meters store terms k = some n' ∧
      n = signed x.sign v + n' := by
  rw [netFlow]
  cases volume usable meters store x.meter k <;> cases netFlow usable meters store terms k <;> simp [eq_comm]

theorem netFlow_of_volumes {v : Term → Nat} (h : ∀ x ∈ terms, volume usable meters store x.meter k = some (v x)) :
    netFlow usable meters store terms k = some (signSum terms .inlet v - signSum terms .outlet v) := by
  induction terms with
  | nil => rfl
  | cons x rest ih =>
    rw [signSum_cons, netFlow_cons_eq_some]
    exact ⟨v x, _, h x (by simp), ih fun y hy => h y (by simp [hy]), rfl⟩

theorem netFlow_eq_none {x : Term} (hx : x ∈ terms) (h : volume usable meters store x.meter k = none) :
    netFlow usable meters store terms k = none := by
  induction terms with
  | nil => cases hx
  | cons y rest ih =>
    refine Option.eq_none_iff_forall_ne_some.2 fun n hn => ?_
    obtain ⟨v, n', hv, hn', -⟩ := netFlow_cons_eq_some.1 hn
    rcases List.mem_cons.1 hx with rfl | hx
    · rw [h] at hv
      cases hv
    · rw [ih hx] at hn'
      cases hn'

/-- The number of terms of one sign. -/
def signCount (terms : List Term) (sign : Sign) : Nat := terms.countP (fun x => x.sign = sign)

theorem signCount_add (terms : List Term) : signCount terms .inlet + signCount terms .outlet = terms.length := by
  induction terms with
  | nil => rfl
  | cons x rest ih =>
    simp only [signCount, List.countP_cons, List.length_cons] at ih ⊢
    cases x.sign <;> simp <;> omega

theorem netFlow_bounds (small : ∀ m k value, usable (slotAt store m k) = some value → value ≤ 65534) {n : Int}
    (h : netFlow usable meters store terms k = some n) :
    -(6553400 * (signCount terms .outlet : Int)) ≤ n ∧ n ≤ 6553400 * (signCount terms .inlet : Int) := by
  induction terms generalizing n with
  | nil =>
    obtain rfl := Option.some.inj h
    simp [signCount]
  | cons x rest ih =>
    obtain ⟨v, n', hv, hn', rfl⟩ := netFlow_cons_eq_some.1 h
    have volume := volume_le small hv
    have rest := ih hn'
    simp only [signCount, List.countP_cons] at rest ⊢
    cases x.sign <;> simp [signed] <;> omega

/-! ### Hour sums (R90) -/

theorem hourSum_eq_some {h : Int} : hourSum usable meters store terms j = some h ↔
    ∃ a b c d, netFlow usable meters store terms j = some a ∧ netFlow usable meters store terms (j + 1) = some b ∧
      netFlow usable meters store terms (j + 2) = some c ∧ netFlow usable meters store terms (j + 3) = some d ∧
      h = a + b + c + d := by
  unfold hourSum
  dsimp only
  cases netFlow usable meters store terms j <;> cases netFlow usable meters store terms (j + 1) <;>
    cases netFlow usable meters store terms (j + 2) <;> cases netFlow usable meters store terms (j + 3) <;>
    simp [eq_comm]

theorem hourSum_bounds (small : ∀ m k value, usable (slotAt store m k) = some value → value ≤ 65534) {h : Int}
    (hh : hourSum usable meters store terms j = some h) :
    -(26213600 * (signCount terms .outlet : Int)) ≤ h ∧ h ≤ 26213600 * (signCount terms .inlet : Int) := by
  obtain ⟨a, b, c, d, ha, hb, hc, hd, rfl⟩ := hourSum_eq_some.1 hh
  have := netFlow_bounds small ha
  have := netFlow_bounds small hb
  have := netFlow_bounds small hc
  have := netFlow_bounds small hd
  omega

/-- The largest hour sum, of eight IN terms. -/
theorem hourSum_le (small : ∀ m k value, usable (slotAt store m k) = some value → value ≤ 65534) {h : Int}
    (hh : hourSum usable meters store terms j = some h) (few : terms.length ≤ 8) : h ≤ 209708800 := by
  have := hourSum_bounds small hh
  have := signCount_add terms
  omega

/-- Settles O25. -/
theorem hourSumsOfNetFlows : Obligations.HourSumsOfNetFlows := by
  refine ⟨fun _ _ => availableValue_eq_some, fun _ _ => filledValue_eq_some, ?_⟩
  intro usable meters store terms
  refine ⟨?_, ?_, ?_, ?_, ?_⟩
  · intro k v h
    refine netFlow_of_volumes fun x hx => ?_
    obtain ⟨e, code, value, litres, he, hk, hl, hu, hv⟩ := h x hx
    refine volume_eq_some.2 ⟨value, litres, hu, meterWeight_eq_some.2 ⟨e, code, he, hk, ?_⟩, hv⟩
    exact (pulseLitres_of_getElem hl).symm
  · intro k x hx h
    refine netFlow_eq_none hx (Option.eq_none_iff_forall_ne_some.2 fun v hv => ?_)
    obtain ⟨value, w, hu, hw, -⟩ := volume_eq_some.1 hv
    obtain ⟨e, code, he, hk, -⟩ := meterWeight_eq_some.1 hw
    rcases h with h | h
    · rw [h] at hu
      cases hu
    · exact h e code he hk
  · intro j a b c d ha hb hc hd
    exact hourSum_eq_some.2 ⟨a, b, c, d, ha, hb, hc, hd, rfl⟩
  · intro j i hi h
    refine Option.eq_none_iff_forall_ne_some.2 fun v hv => ?_
    obtain ⟨a, b, c, d, ha, hb, hc, hd, -⟩ := hourSum_eq_some.1 hv
    interval_cases i <;> simp_all
  · intro j v hv few inlet small
    have bounds := hourSum_bounds small hv
    have total := signCount_add terms
    have some : 0 < signCount terms .inlet := by
      obtain ⟨x, hx, hs⟩ := inlet
      exact List.countP_pos_iff.2 ⟨x, hx, by simpa using hs⟩
    omega

/-! ### The normalisation bound (R99) -/

theorem exponentFactor_le (c : Nat) {r : Nat} (lower : 32768 ≤ r) (upper : r ≤ 131072) :
    exponentFactor c r ≤ 370724 := by
  by_cases hc : c ≤ 4
  · exact (exponentFactor_mem_range hc lower upper).2
  · have same : exponentFactor c r = exponentFactor 4 r := by
      unfold exponentFactor
      split <;> first | omega | rfl
    rw [same]
    exact (exponentFactor_mem_range (le_refl 4) lower upper).2

theorem normalise_le {l f : Nat} (hl : l ≤ 209708800) (hf : f ≤ 370724) :
    l * f ≤ 77744085171200 ∧ normalise l f ≤ 1186280596 := by
  have product : l * f ≤ 209708800 * 370724 := Nat.mul_le_mul hl hf
  refine ⟨by omega, ?_⟩
  unfold normalise
  simp only [Config.q16]
  omega

/-- A night that is not scaled: the factor is one. -/
theorem normalise_one (l : Nat) : normalise l 65536 = l := Nat.mul_div_cancel l (by decide)

theorem factorOf_le (e : DistrictEntry) (pavg : Option Nat) : factorOf e pavg ≤ 370724 := by
  unfold factorOf
  split
  · decide
  · obtain ⟨lower, upper⟩ := clampRatio_mem_range (rawRatio e.refPressure ‹Nat›)
    exact exponentFactor_le _ lower upper

/-- Settles O28. -/
theorem normalisationBound : Obligations.NormalisationBound := by
  refine ⟨fun l c r hl hc lower upper => ?_, by decide, fun k => ?_, normalise_one⟩
  · obtain ⟨product, bound⟩ := normalise_le hl (exponentFactor_le c lower upper)
    exact ⟨rfl, product, lt_of_le_of_lt product (by norm_num), bound⟩
  · simp [normalise]

end Sys2Proof.Machine
end

section
/-!
PROOFS. The outcome of a district of a run (sections 4.2, 4.4, 4.5 and 4.6): its complete positions, its minimum hour,
the pressure of that hour and the figures that follow.
-/

namespace Sys2Proof.Machine

variable {s : State} {run : Run} {e : DistrictEntry} {meters : Tbl MeterEntry} {store : Tbl Slot} {terms : List Term}
  {suspended : IdxSet} {m j n : Nat}

/-! ### Complete positions and the minimum hour (R90, R91) -/

theorem mem_completePositions {x : Nat × Int} : x ∈ completePositions meters store terms n ↔
    x.1 < n - 3 ∧ hourSum availableValue meters store terms x.1 = some x.2 := by
  obtain ⟨j, h⟩ := x
  simp only [completePositions, List.mem_filterMap, List.mem_range, Option.map_eq_some_iff, Prod.mk.injEq]
  constructor
  · rintro ⟨k, hk, h', hh, rfl, rfl⟩
    exact ⟨hk, hh⟩
  · rintro ⟨hj, hh⟩
    exact ⟨j, hj, h, hh, rfl, rfl⟩

theorem length_completePositions : (completePositions meters store terms n).length =
    ((List.range (n - 3)).filter (fun j => (hourSum availableValue meters store terms j).isSome)).length := by
  rw [completePositions, List.length_filterMap_eq_countP, List.countP_eq_length_filter]
  simp

theorem completePositions_sorted : (completePositions meters store terms n).Pairwise (fun x y => x.1 < y.1) := by
  refine List.pairwise_filterMap.2 (List.pairwise_lt_range.imp fun hab x hx y hy => ?_)
  obtain ⟨_, _, rfl⟩ := Option.map_eq_some_iff.1 hx
  obtain ⟨_, _, rfl⟩ := Option.map_eq_some_iff.1 hy
  exact hab

/-- The minimum of sums in the order of their positions: the smallest, the earliest where several attain it. -/
theorem minimumOf_spec (first : Nat × Int) (rest : List (Nat × Int))
    (sorted : (first :: rest).Pairwise (fun x y => x.1 < y.1)) :
    minimumOf first rest ∈ first :: rest ∧ ∀ x ∈ first :: rest, (minimumOf first rest).2 ≤ x.2 ∧
      (x.1 < (minimumOf first rest).1 → (minimumOf first rest).2 < x.2) := by
  induction rest generalizing first with
  | nil =>
    refine ⟨by simp [minimumOf], fun x hx => ?_⟩
    obtain rfl := List.mem_singleton.1 hx
    exact ⟨le_refl _, fun h => absurd h (lt_irrefl _)⟩
  | cons y rest ih =>
    obtain ⟨later, sortedRest⟩ := List.pairwise_cons.1 sorted
    have step : minimumOf first (y :: rest) = minimumOf (if y.2 < first.2 then y else first) rest := rfl
    rw [step]
    split
    · rename_i smaller
      obtain ⟨member, least⟩ := ih y sortedRest
      refine ⟨List.mem_cons_of_mem _ member, fun x hx => ?_⟩
      rcases List.mem_cons.1 hx with rfl | hx
      · have := (least y (by simp)).1
        exact ⟨by omega, fun _ => by omega⟩
      · exact least x hx
    · rename_i notSmaller
      obtain ⟨member, least⟩ := ih first (sorted.sublist (by simp))
      refine ⟨by simp only [List.mem_cons] at member ⊢; tauto, fun x hx => ?_⟩
      have ofFirst := least first (by simp)
      rcases List.mem_cons.1 hx with rfl | hx
      · exact ofFirst
      · rcases List.mem_cons.1 hx with rfl | hx
        · have order := later x (by simp)
          exact ⟨by omega, fun before => by have := ofFirst.2 (by omega); omega⟩
        · exact least x (List.mem_cons_of_mem _ hx)

/-! ### The pressure of an hour, and its estimates (R86, R92, R95) -/

theorem pressureAverage_eq_some {v : Nat} : pressureAverage e store suspended j = some v ↔ v ≠ 0 ∧
    ∃ m a b c d, e.pressurePoint = some m ∧ m ∉ suspended ∧ availableValue (slotAt store m j) = some a ∧
      availableValue (slotAt store m (j + 1)) = some b ∧ availableValue (slotAt store m (j + 2)) = some c ∧
      availableValue (slotAt store m (j + 3)) = some d ∧ v = (a + b + c + d) / 4 := by
  unfold pressureAverage
  cases hp : e.pressurePoint with
  | none => simp
  | some m =>
    dsimp only
    by_cases hs : m ∈ suspended
    · simp [hasIdx, hs]
    · rw [if_neg (by simpa [hasIdx] using hs)]
      cases ha : availableValue (slotAt store m j) <;> cases hb : availableValue (slotAt store m (j + 1)) <;>
        cases hc : availableValue (slotAt store m (j + 2)) <;>
        cases hd : availableValue (slotAt store m (j + 3)) <;> simp [ha, hb, hc, hd, hs]
      rw [eq_comm (a := v)]
      constructor
      · rintro ⟨big, rfl⟩
        exact ⟨by omega, rfl⟩
      · rintro ⟨big, rfl⟩
        exact ⟨by omega, rfl⟩

theorem estimatedIn_iff : estimatedIn store m j = true ↔
    ∃ k v, j ≤ k ∧ k ≤ j + 3 ∧ slotAt store m k = .estimated v := by
  have slot (k : Nat) : (match slotAt store m k with
      | .estimated _ => true
      | .empty | .filled _ | .conflict => false) = true ↔ ∃ v, slotAt store m k = .estimated v := by
    cases slotAt store m k <;> simp
  have rewritten : estimatedIn store m j = true ↔
      ∃ k ∈ [j, j + 1, j + 2, j + 3], ∃ v, slotAt store m k = .estimated v := by
    simp only [estimatedIn, List.any_eq_true]
    exact exists_congr fun k => and_congr_right fun _ => slot k
  rw [rewritten]
  constructor
  · rintro ⟨k, hk, v, hv⟩
    simp only [List.mem_cons, List.not_mem_nil, or_false] at hk
    exact ⟨k, v, by omega, by omega, hv⟩
  · rintro ⟨k, v, lower, upper, hv⟩
    refine ⟨k, ?_, v, hv⟩
    simp only [List.mem_cons, List.not_mem_nil, or_false]
    omega

theorem estimateUsed_iff {pavg : Option Nat} : estimateUsed e store pavg j = true ↔
    (∃ y ∈ e.terms, estimatedIn store y.meter j = true) ∨
      (pavg ≠ none ∧ ∃ m, e.pressurePoint = some m ∧ estimatedIn store m j = true) := by
  unfold estimateUsed
  cases pavg <;> cases e.pressurePoint <;> simp

/-! ### The outcome -/

theorem termSuspended_iff : termSuspended e suspended = true ↔ ∃ y ∈ e.terms, y.meter ∈ suspended := by
  simp [termSuspended, hasIdx]

/-- The figures of a night that is assessed: those of the least of its complete positions. -/
theorem settleDistrict_assessed (calm : run.disturbed = false)
    (unsuspended : ¬ ∃ y ∈ e.terms, y.meter ∈ s.intake.suspended) (minimum : 1 ≤ e.minCoverage)
    (covered : e.minCoverage ≤ (settleDistrict s run e).positions) :
    ∃ least : Nat × Int, (settleDistrict s run e).outcome =
        .inr (figuresOf e s.intake.store s.intake.suspended least) ∧
      least ∈ completePositions s.config.active.meters s.intake.store e.terms run.length ∧
      ∀ x ∈ completePositions s.config.active.meters s.intake.store e.terms run.length,
        least.2 ≤ x.2 ∧ (x.1 < least.1 → least.2 < x.2) := by
  have covered : e.minCoverage ≤
      (completePositions s.config.active.meters s.intake.store e.terms run.length).length := covered
  have unsuspended : termSuspended e s.intake.suspended = false := by
    rw [Bool.eq_false_iff, ne_eq, termSuspended_iff]
    exact unsuspended
  have sorted := completePositions_sorted (meters := s.config.active.meters) (store := s.intake.store)
    (terms := e.terms) (n := run.length)
  unfold settleDistrict
  dsimp only
  rw [if_neg (by simp [calm]), if_neg (by simp [unsuspended]), if_neg (by omega)]
  cases hc : completePositions s.config.active.meters s.intake.store e.terms run.length with
  | nil =>
    rw [hc] at covered
    simp at covered
    omega
  | cons first rest =>
    rw [hc] at sorted
    exact ⟨_, rfl, minimumOf_spec first rest sorted⟩

/-- An assessed outcome has the figures of a complete position of the window. -/
theorem settleDistrict_inr {f : Figures} (h : (settleDistrict s run e).outcome = .inr f) :
    ∃ least : Nat × Int, f = figuresOf e s.intake.store s.intake.suspended least ∧
      hourSum availableValue s.config.active.meters s.intake.store e.terms least.1 = some least.2 := by
  have sorted := completePositions_sorted (meters := s.config.active.meters) (store := s.intake.store)
    (terms := e.terms) (n := run.length)
  unfold settleDistrict at h
  dsimp only at h
  split at h
  · cases h
  split at h
  · cases h
  split at h
  · cases h
  split at h
  · cases h
  · rename_i first rest hc
    obtain rfl := Sum.inr.inj h
    rw [hc] at sorted
    have member := (minimumOf_spec first rest sorted).1
    rw [← hc] at member
    exact ⟨_, rfl, (mem_completePositions.1 member).2⟩

theorem clampActs_iff {v : Nat} : clampActs e (some v) = true ↔
    e.refPressure * 65536 / v < 32768 ∨ 131072 < e.refPressure * 65536 / v := by
  simp only [clampActs, decide_eq_true_eq]
  exact clampRatio_ne_self_iff _

/-- Settles O24. -/
theorem settledFiguresOfADistrict : Obligations.SettledFiguresOfADistrict := by
  intro s run e
  dsimp only
  refine ⟨length_completePositions, fun disturbed => ?_, fun calm suspended => ?_,
    fun calm unsuspended few => ?_, fun calm unsuspended minimum covered => ?_⟩
  · simp [settleDistrict, disturbed]
  · simp [settleDistrict, calm, termSuspended_iff.2 suspended]
  · have few : (completePositions s.config.active.meters s.intake.store e.terms run.length).length <
        e.minCoverage := few
    have unsuspended : ¬ termSuspended e s.intake.suspended = true := fun h => unsuspended (termSuspended_iff.1 h)
    unfold settleDistrict
    dsimp only
    rw [if_neg (by simp [calm]), if_neg unsuspended, if_pos few]
  obtain ⟨least, outcome, member, smallest⟩ := settleDistrict_assessed calm unsuspended minimum covered
  obtain ⟨inWindow, sum⟩ := mem_completePositions.1 member
  refine ⟨_, outcome, inWindow, sum, fun j v hj hv => smallest (j, v) (mem_completePositions.2 ⟨hj, hv⟩), ?_,
    ?_, fun v => ?_, fun absent => ?_, fun v applied => ⟨?_, ?_⟩, ?_⟩
  · simp only [figuresOf]
    omega
  · simp [figuresOf]
  · simp only [← availableValue_eq_some]
    exact pressureAverage_eq_some
  · have absent : pressureAverage e s.intake.store s.intake.suspended least.1 = none := absent
    simp only [figuresOf, absent]
    exact ⟨normalise_one _, rfl⟩
  · have applied : pressureAverage e s.intake.store s.intake.suspended least.1 = some v := applied
    simp only [figuresOf, applied]
    rfl
  · have applied : pressureAverage e s.intake.store s.intake.suspended least.1 = some v := applied
    simp only [figuresOf, applied]
    exact clampActs_iff
  · simp only [← estimatedIn_iff]
    exact estimateUsed_iff

end Sys2Proof.Machine
end

section
/-!
PROOFS. Reading Intake and the Suspension List: the few updates through which a command can change them, and an
induction over those updates.
-/

namespace Sys2Proof.Machine

variable {i : Option Instr} {s t u : State} {P : State → Prop}

/-- The two states agree in Reading Intake, the Suspension List, the active and the pending set. -/
structure SameIntake (s t : State) : Prop where
  intake : t.intake = s.intake
  suspensions : t.suspensions = s.suspensions
  active : t.config.active = s.config.active
  waiting : t.config.pending = s.config.pending

theorem SameIntake.refl (s : State) : SameIntake s s := ⟨rfl, rfl, rfl, rfl⟩

theorem SameIntake.append (s : State) (kind : EventKind) (subject night : Nat) (detail : Int) :
    SameIntake s (s.append kind subject night detail) := ⟨by simp, by simp, by simp, by simp⟩

/-- A property of Reading Intake and the Suspension List that each of their updates keeps. The updates that a command
makes first start from the state `s` that it finds. -/
structure IntakeKept (s : State) (P : State → Prop) : Prop where
  congr : ∀ {u v}, P u → SameIntake u v → P v
  hears : ∀ u m, P u → P (u.setIntake { u.intake with heard := insertIdx u.intake.heard m })
  runs : ∀ u m r, P u → P (u.setIntake { u.intake with runtime := tput u.intake.runtime m r })
  reports : ∀ u m, P u →
    P (u.setIntake { u.intake with rangeReported := insertIdx u.intake.rangeReported m })
  files : ∀ u m k v, v ≤ 65534 → P u → P (fileSlot m k v u)
  marks : ∀ u m, P u → P (u.setIntake { u.intake with suspended := insertIdx u.intake.suspended m })
  nights : ∀ u, P u → P (u.setIntake (setUpNight (tkeys u.suspensions) u.intake))
  clears : ∀ u, P u → P (u.setIntake (clearNight u.intake))
  lists : ∀ m x, (tget s.config.active.meters m).isSome →
    (tget s.suspensions m).isSome ∨ s.suspensions.length < 16 → P (s.setSuspensions (tput s.suspensions m x))
  resumes : ∀ m, P (s.setSuspensions (tdel s.suspensions m))
  expires : ∀ u d, P u → P (u.setSuspensions (u.suspensions.filter (fun e => !expires d e.2)))
  infills : ∀ n, P (s.setIntake { s.intake with store := infillStore s.config.active.meters n s.intake.store })
  commits : ∀ p h, s.config.hold = some h →
    P (s.setConfig { s.config with pending := some ⟨h.staging, p⟩, hold := none })
  installs : ∀ u pd night, u.config.pending = some pd → P u → P (adoptSet pd night u)
  lapses : P (startMain (lapse s))

namespace IntakeKept

variable (k : IntakeKept s P)
include k

theorem appended (h : P u) (kind : EventKind) (subject night : Nat) (detail : Int) :
    P (u.append kind subject night detail) := k.congr h (SameIntake.append u kind subject night detail)

/-! ### The filing of values -/

theorem hear (h : P u) (p : Port) (m : Nat) : P (hear p m u) := by
  unfold Machine.hear
  dsimp only
  split
  · exact k.hears u m h
  · exact k.appended (k.runs _ m _ (k.hears u m h)) _ _ _ _

theorem reportRange (h : P u) (m v : Nat) : P (reportRange m v u) := by
  unfold Machine.reportRange
  split
  · exact h
  · exact k.appended (k.reports u m h) _ _ _ _

theorem offerSlot (h : P u) (p : NightPlan) (m x : Nat) (e : MeterEntry) : P (offerSlot p m x e u) := by
  unfold Machine.offerSlot
  split
  · rw [takeOffer_frame]
    exact k.congr h ⟨rfl, rfl, rfl, rfl⟩
  · exact h

theorem applyFate (h : P u) (port : Port) (m : Nat) (e : MeterEntry) (x : Nat) {v : Nat} (small : v ≤ 65535) :
    P (applyFate port m e x v (judgeValue u m e x v) u) := by
  have heard := k.hear h port m
  by_cases gap : v = 0xFFFF
  · have fate : judgeValue u m e x v = .gap := by simp [judgeValue, gap]
    rw [fate]
    exact h
  · have small : v ≤ 65534 := by omega
    unfold Machine.applyFate
    split
    · dsimp only
      split
      · exact k.reportRange heard m v
      · exact k.offerSlot (k.files _ m _ v small heard) _ m _ e
      · exact k.files _ m _ v small heard
      · exact heard
    · exact h

theorem takeValues (h : P u) (port : Port) (m : Nat) (e : MeterEntry) (x : Nat) {vs : List Nat}
    (small : ∀ v ∈ vs, v ≤ 65535) : P (takeValues port m e x vs u).1 := by
  induction vs generalizing x u with
  | nil => exact h
  | cons v rest ih =>
    exact ih (k.applyFate h port m e x (small v (by simp))) (x + 1) fun w hw => small w (by simp [hw])

/-! ### The boundaries and the entries of the night -/

theorem entersNight (h : P u) (n : NightPlan) : P (entersNight n u) :=
  k.congr (k.nights u h) ⟨rfl, rfl, rfl, rfl⟩

theorem takeAllHeld (h : P u) : P (takeAllHeld u) := by
  obtain ⟨-, hi, hc, -, -, hs, -, -⟩ := takeAllHeld_keeps u
  exact k.congr h ⟨hi, hs, by rw [hc], by rw [hc]⟩

theorem fireDue (h : P u) : P (fireDue u) :=
  fireDue_induction u h (fun n _ _ _ h => k.entersNight h n) (fun _ _ _ _ h => k.congr h ⟨rfl, rfl, rfl, rfl⟩)
    fun _ _ _ _ h => k.congr (k.takeAllHeld h) ⟨rfl, rfl, rfl, rfl⟩

theorem replan (h : P u) : P (replan u) := by
  rw [replan_frame]
  exact k.congr h ⟨rfl, rfl, rfl, rfl⟩

theorem install (h : P u) (night : Nat) : P (install night u) := by
  cases hp : u.config.pending with
  | none =>
    rw [install_of_none night hp]
    exact h
  | some pd =>
    rw [install_of_some night hp]
    exact k.replan (k.installs u pd night hp h)

theorem installNow (h : P u) : P (installNow u) :=
  installNow_induction u h fun night _ => k.install h night

theorem enterFirst (h : P u) : P (enterFirst u) := by
  rcases enterFirst_cases u with ⟨closed, o, -, he⟩ | ⟨closed, p, -, -, he⟩ <;> rw [he]
  · exact k.congr h ⟨rfl, rfl, rfl, rfl⟩
  · exact k.entersNight (by exact k.congr h ⟨rfl, rfl, rfl, rfl⟩) p

theorem setTime (h : P u) (p : Port) (t : Nat) : P (setTime p t u) := by
  unfold Machine.setTime
  split
  · exact k.fireDue (k.appended (by exact k.congr h ⟨rfl, rfl, rfl, rfl⟩) _ _ _ _)
  · unfold setTimeInvalid
    dsimp only
    split
    · exact k.appended (by exact k.congr h ⟨rfl, rfl, rfl, rfl⟩) _ _ _ _
    all_goals
      exact k.fireDue (k.appended
        (k.installNow (k.enterFirst (by exact k.congr h ⟨rfl, rfl, rfl, rfl⟩))) _ _ _ _)

theorem tick (h : P u) : P (tick u) := by
  unfold Machine.tick
  split
  · exact k.fireDue (k.congr h ⟨rfl, rfl, rfl, rfl⟩)
  · unfold rangeEnd
    dsimp only
    split
    · exact k.installNow (k.congr h ⟨rfl, rfl, rfl, rfl⟩)
    all_goals exact k.congr h ⟨rfl, rfl, rfl, rfl⟩

theorem updateMeters (h : P u) (d : Nat) : P (updateMeters d u) := by
  unfold Machine.updateMeters
  generalize tkeys u.config.active.meters = l
  induction l generalizing u with
  | nil => exact h
  | cons m rest ih =>
    refine ih ?_
    unfold updateMeter
    dsimp only
    split
    · exact k.appended (k.runs u m _ h) _ _ _ _
    · exact k.runs u m _ h

theorem expireSuspensions (h : P u) (d : Nat) : P (expireSuspensions d u) := by
  have expired := k.expires u d h
  unfold Machine.expireSuspensions
  generalize u.suspensions.filter (fun e => Machine.expires d e.2) = l
  generalize u.setSuspensions _ = v at expired ⊢
  induction l generalizing v with
  | nil => exact expired
  | cons x rest ih => exact ih _ (k.appended expired _ _ _ _)

theorem settlementEnd (h : P u) : P (settlementEndEvent u) := by
  unfold settlementEndEvent
  split
  · rename_i p _ _
    rw [endSettlement_eq]
    have settled : P (settledState p u) :=
      k.install (k.expireSuspensions
        (k.clears _ (k.updateMeters (by exact k.congr h ⟨rfl, rfl, rfl, rfl⟩) _)) _) _
    refine k.fireDue ?_
    unfold planAfter
    split
    · exact k.congr settled ⟨rfl, rfl, rfl, rfl⟩
    · split
      · exact k.enterFirst (k.congr settled ⟨rfl, rfl, rfl, rfl⟩)
      · exact k.congr settled ⟨rfl, rfl, rfl, rfl⟩
  · exact h

theorem enterStartUp (h : P u) : P (enterStartUp u) := by
  rcases enterStartUp_cases u with ⟨-, he⟩ | ⟨-, ⟨closed, o, -, he⟩ | ⟨closed, p, -, -, -, -, he⟩⟩ <;> rw [he]
  · exact k.congr h ⟨rfl, rfl, rfl, rfl⟩
  · exact k.congr h ⟨rfl, rfl, rfl, rfl⟩
  · unfold reenterNight
    rw [enterNight_eq]
    exact k.congr (k.entersNight (k.congr h ⟨rfl, rfl, rfl, rfl⟩) p) ⟨rfl, rfl, rfl, rfl⟩

theorem startMain (h : P u) : P (startMain u) := k.congr (k.clears u h) ⟨rfl, rfl, rfl, rfl⟩

theorem startUp (h : P u) : P (Machine.fireDue (Machine.installNow (appendBackupLow u))) := by
  refine k.fireDue (k.installNow ?_)
  unfold appendBackupLow
  split
  · exact k.appended h _ _ _ _
  · exact h

end IntakeKept

/-- What holds of Reading Intake and the Suspension List before an effect and is kept by each of their updates holds
after it. -/
theorem Effect.intake (he : Effect i s u) (h : P s) (k : IntakeKept s P) : P u := by
  cases he with
  | nothing => exact h
  | values p m e x vs small => exact k.takeValues h p m e x small
  | setsTime p t => exact k.setTime h p t
  | opensHold | edits | countsHold | discards | rebases | relearns | readsEvents | setsLatch | backupReturns =>
    exact k.congr h ⟨rfl, rfl, rfl, rfl⟩
  | dropsHold hold cause => exact k.appended (by exact k.congr h ⟨rfl, rfl, rfl, rfl⟩) _ _ _ _
  | commits p hold _ held => exact k.fireDue (k.installNow (k.commits p hold held))
  | suspends m x known room =>
    have listed := k.lists m x known room
    unfold markSuspended
    split
    · exact k.marks _ m listed
    · exact listed
  | resumes m => exact k.resumes m
  | acks => exact k.appended (by exact k.congr h ⟨rfl, rfl, rfl, rfl⟩) _ _ _ _
  | setsRules rules => exact k.fireDue (k.replan (k.congr h ⟨rfl, rfl, rfl, rfl⟩))
  | ticks => exact k.tick h
  | fires => exact k.fireDue h
  | infills =>
    rcases infillEvent_cases s with hu | ⟨run, -, hu⟩ <;> rw [hu]
    · exact h
    · exact k.congr (k.infills run.length) ⟨rfl, rfl, rfl, rfl⟩
  | handsOver =>
    rcases handOverEvent_cases s with hu | ⟨run, d, rest, -, -, hu | ⟨e, r, -, -, hu⟩⟩ <;> rw [hu]
    · exact h
    · exact k.congr h ⟨rfl, rfl, rfl, rfl⟩
    · rw [judgeAndRecord_eq]
      exact k.congr h ⟨rfl, rfl, rfl, rfl⟩
  | completes =>
    rcases completeEvent_cases s with hu | ⟨run, -, hu⟩ <;> rw [hu]
    · exact h
    · exact k.congr (k.appended h .nightSettled 0 run.date (settledDetail run)) ⟨rfl, rfl, rfl, rfl⟩
  | settles => exact k.settlementEnd h
  | takesHeld d =>
    obtain ⟨-, hi, hc, -, -, hs, -, -⟩ := takeHeld_keeps d s
    exact k.congr h ⟨hi, hs, by rw [hc], by rw [hc]⟩
  | powersUp b =>
    refine k.startUp ?_
    have entered : P (Machine.enterStartUp (Machine.startMain (judgeRetention b s))) := by
      refine k.enterStartUp ?_
      unfold judgeRetention
      split
      · exact k.congr k.lapses ⟨rfl, rfl, rfl, rfl⟩
      · exact k.startMain (u := s.setRetention _) (k.congr h ⟨rfl, rfl, rfl, rfl⟩)
    split
    · exact k.appended entered _ _ _ _
    · exact entered
  | resets => exact k.startUp (k.enterStartUp (k.startMain (k.congr h ⟨rfl, rfl, rfl, rfl⟩)))
  | losesPower => exact k.congr (k.startMain (by exact k.congr h ⟨rfl, rfl, rfl, rfl⟩)) ⟨rfl, rfl, rfl, rfl⟩
  | backupFalls =>
    unfold Machine.backupFalls
    split
    · unfold appendBackupLow
      split
      · exact k.appended (by exact k.congr h ⟨rfl, rfl, rfl, rfl⟩) _ _ _ _
      · exact k.congr h ⟨rfl, rfl, rfl, rfl⟩
    · exact h

/-- What holds of Reading Intake and the Suspension List before a step and is kept by each of their updates holds after
it. -/
theorem step_intake (hstep : step s = .next t) (h : P s) (k : ∀ v, SameIntake s v → IntakeKept v P) : P t := by
  obtain ⟨x, u, y, effect, rfl, -, -⟩ := step_effect hstep
  have kept := k ({ s with pending := s.pending.tail }.setPorts x) ⟨rfl, rfl, rfl, rfl⟩
  exact kept.congr (effect.intake (kept.congr h ⟨rfl, rfl, rfl, rfl⟩) kept) ⟨rfl, rfl, rfl, rfl⟩

end Sys2Proof.Machine
end

section
/-!
PROOFS. The infill pass (section 4.3) and the law of the bound (sections 4.6 and 8.1).
-/

namespace Sys2Proof.Machine

variable {s t u : State} {store acc : Tbl Slot} {n m k : Nat}

/-! ### The infill pass, slot by slot (R87) -/

theorem estimateOf_eq_some {before slot after : Slot} {v : Nat} : estimateOf before slot after = some v ↔
    (slot = .empty ∨ slot = .conflict) ∧ ∃ a b, before = .filled a ∧ after = .filled b ∧ v = (a + b) / 2 := by
  cases slot <;> cases before <;> cases after <;> simp [estimateOf, eq_comm]

/-- What the pass makes of a slot: an estimate between two FILLED neighbours, or what it was. -/
theorem infilledSlot_cases (store : Tbl Slot) (n m k : Nat) :
    (∃ a b, 1 ≤ k ∧ k + 2 ≤ n ∧ (slotAt store m k = .empty ∨ slotAt store m k = .conflict) ∧
      slotAt store m (k - 1) = .filled a ∧ slotAt store m (k + 1) = .filled b ∧
      infilledSlot store n m k = .estimated ((a + b) / 2)) ∨
    infilledSlot store n m k = slotAt store m k := by
  unfold infilledSlot
  split
  · rename_i inside
    split
    · rename_i v hv
      obtain ⟨candidate, a, b, ha, hb, rfl⟩ := estimateOf_eq_some.1 hv
      exact .inl ⟨a, b, inside.1, inside.2, candidate, ha, hb, rfl⟩
    · exact .inr rfl
  · exact .inr rfl

theorem infilledSlot_estimated {a b : Nat} (h1 : 1 ≤ k) (h2 : k + 2 ≤ n)
    (candidate : slotAt store m k = .empty ∨ slotAt store m k = .conflict)
    (ha : slotAt store m (k - 1) = .filled a) (hb : slotAt store m (k + 1) = .filled b) :
    infilledSlot store n m k = .estimated ((a + b) / 2) := by
  have estimate := estimateOf_eq_some.2 ⟨candidate, a, b, ha, hb, rfl⟩
  unfold infilledSlot
  rw [if_pos ⟨h1, h2⟩, estimate]

theorem slotAt_infillSlot (hk : k < 24) {m' k' : Nat} (hk' : k' < 24) :
    slotAt (infillSlot store n m acc k) m' k' =
      if m' = m ∧ k' = k ∧ infilledSlot store n m' k' ≠ slotAt store m' k' then infilledSlot store n m' k'
      else slotAt acc m' k' := by
  unfold infillSlot
  split
  · rename_i same
    rw [if_neg]
    rintro ⟨rfl, rfl, differs⟩
    exact differs same
  · rename_i differs
    by_cases here : m' = m ∧ k' = k
    · obtain ⟨rfl, rfl⟩ := here
      rw [slotAt_putSlot_self, if_pos ⟨rfl, rfl, differs⟩]
    · rw [slotAt_putSlot_ne acc _ hk hk' (by tauto), if_neg (by tauto)]

theorem slotAt_infillSlots (l : List Nat) (hl : ∀ k ∈ l, k < 24) {m' k' : Nat} (hk' : k' < 24) :
    slotAt (l.foldl (infillSlot store n m) acc) m' k' =
      if m' = m ∧ k' ∈ l ∧ infilledSlot store n m' k' ≠ slotAt store m' k' then infilledSlot store n m' k'
      else slotAt acc m' k' := by
  induction l generalizing acc with
  | nil => simp
  | cons k rest ih =>
    rw [List.foldl_cons, ih (fun x hx => hl x (by simp [hx])), slotAt_infillSlot (hl k (by simp)) hk']
    simp only [List.mem_cons]
    split_ifs <;> tauto

theorem slotAt_infillRows (l : List Nat) {m' k' : Nat} (hk' : k' < 24) :
    slotAt (l.foldl (infillRow store n) acc) m' k' =
      if m' ∈ l ∧ infilledSlot store n m' k' ≠ slotAt store m' k' then infilledSlot store n m' k'
      else slotAt acc m' k' := by
  induction l generalizing acc with
  | nil => simp
  | cons m rest ih =>
    have row : slotAt (infillRow store n acc m) m' k' = _ :=
      slotAt_infillSlots (List.range 24) (fun k hk => List.mem_range.1 hk) hk'
    rw [List.foldl_cons, ih, row]
    simp only [List.mem_cons, List.mem_range, hk', true_and]
    split_ifs <;> tauto

/-- The Interval Store after the pass, slot by slot. -/
theorem slotAt_infillStore (meters : Tbl MeterEntry) (hk : k < 24) :
    slotAt (infillStore meters n store) m k =
      if m ∈ infillMeters meters then infilledSlot store n m k else slotAt store m k := by
  rw [infillStore, slotAt_infillRows _ hk]
  split_ifs <;> tauto

theorem mem_infillMeters {meters : Tbl MeterEntry} :
    m ∈ infillMeters meters ↔ ∃ x ∈ meters, x.1 = m ∧ x.2.infill = true := by
  simp [infillMeters, tkeys, and_comm]

theorem exec_infillPass {run : Run} (powered : s.retention.powered = true) (hrun : s.settlement = some run)
    (due : run.infilled = false) : exec .infillPass s = .next { s with
      intake := { s.intake with store := infillStore s.config.active.meters run.length s.intake.store }
      settlement := some { run with infilled := true } } := by
  show Host.Outcome.next (whenPowered infillEvent s) = _
  unfold whenPowered infillEvent
  rw [if_pos powered, hrun]
  simp only [due]
  rfl

/-- Settles O22. -/
theorem infillPassEstimates : Obligations.InfillPassEstimates := by
  intro s run powered hrun due
  refine ⟨_, exec_infillPass powered hrun due, fun m k hk => ?_⟩
  dsimp only
  rw [slotAt_infillStore _ hk, ← mem_infillMeters]
  constructor
  · rintro a b ⟨enabled, h1, h2, slot⟩ ha hb
    rw [if_pos enabled, infilledSlot_estimated h1 h2 slot ha hb]
    exact ⟨rfl, by omega, by omega⟩
  · intro h
    split
    · rename_i enabled
      rcases infilledSlot_cases s.intake.store run.length m k with ⟨a, b, h1, h2, slot, ha, hb, -⟩ | same
      · rcases h with h | h | h
        · exact absurd ⟨enabled, h1, h2, slot⟩ h
        · exact absurd ha (h a)
        · exact absurd hb (h b)
      · exact same
    · rfl

/-! ### The values of slots -/

/-- A slot holds no value above 65534. -/
def Slot.Small (x : Slot) : Prop := ∀ v, x = .filled v ∨ x = .estimated v → v ≤ 65534

/-- No slot of a store holds a value above 65534. -/
def StoreSmall (store : Tbl Slot) : Prop := ∀ m k, (slotAt store m k).Small

theorem slotAt_putSlot (store : Tbl Slot) (m k m' k' : Nat) (x : Slot) :
    slotAt (putSlot store m k x) m' k' = x ∨ slotAt (putSlot store m k x) m' k' = slotAt store m' k' := by
  unfold slotAt putSlot
  rw [tget_tput]
  split
  · exact .inl rfl
  · exact .inr rfl

theorem StoreSmall.put (h : StoreSmall store) (m k : Nat) {x : Slot} (hx : x.Small) :
    StoreSmall (putSlot store m k x) := by
  intro m' k'
  rcases slotAt_putSlot store m k m' k' x with he | he <;> rw [he]
  · exact hx
  · exact h m' k'

theorem StoreSmall.nil : StoreSmall [] := by
  intro m k v hv
  rcases hv with hv | hv <;> cases hv

theorem fileValue_small {slot : Slot} (h : slot.Small) {v : Nat} (small : v ≤ 65534) :
    (fileValue slot v).1.Small := by
  cases slot with
  | empty =>
    intro w hw
    rcases hw with hw | hw <;> cases hw
    exact small
  | filled w =>
    unfold fileValue
    dsimp only
    split
    · exact h
    · intro w hw
      rcases hw with hw | hw <;> cases hw
  | conflict => exact h
  | estimated w => exact h

theorem infilledSlot_small (h : StoreSmall store) (n m k : Nat) : (infilledSlot store n m k).Small := by
  rcases infilledSlot_cases store n m k with ⟨a, b, -, -, -, ha, hb, he⟩ | he <;> rw [he]
  · have small := h m (k - 1) a (.inl ha)
    have small' := h m (k + 1) b (.inl hb)
    intro v hv
    rcases hv with hv | hv <;> cases hv
    omega
  · exact h m k

/-- What each written slot keeps of a store, the infill pass keeps. -/
theorem infillStore_induction {P : Tbl Slot → Prop} (meters : Tbl MeterEntry) (n : Nat) (base : P store)
    (put : ∀ acc m k, infilledSlot store n m k ≠ slotAt store m k → P acc →
      P (putSlot acc m k (infilledSlot store n m k))) : P (infillStore meters n store) := by
  have slot (m k : Nat) (acc : Tbl Slot) (h : P acc) : P (infillSlot store n m acc k) := by
    unfold infillSlot
    split
    · exact h
    · rename_i differs
      exact put acc m k differs h
  have row (m : Nat) (l : List Nat) (acc : Tbl Slot) (h : P acc) : P (l.foldl (infillSlot store n m) acc) := by
    induction l generalizing acc with
    | nil => exact h
    | cons k rest ih => exact ih _ (slot m k acc h)
  have rows (l : List Nat) (acc : Tbl Slot) (h : P acc) : P (l.foldl (infillRow store n) acc) := by
    induction l generalizing acc with
    | nil => exact h
    | cons m rest ih => exact ih _ (row m _ acc h)
  exact rows _ store base

theorem intakeKept_small (h : StoreSmall s.intake.store) :
    IntakeKept s (fun u => StoreSmall u.intake.store) where
  congr hu same := by
    rw [same.intake]
    exact hu
  hears _ _ hu := hu
  runs _ _ _ hu := hu
  reports _ _ hu := hu
  files u m k v small hu := hu.put m k (fileValue_small (hu m k) small)
  marks _ _ hu := hu
  nights _ _ := .nil
  clears _ _ := .nil
  lists _ _ _ _ := h
  resumes _ := h
  expires _ _ hu := hu
  infills n := infillStore_induction _ n h fun acc m k _ hu => hu.put m k (infilledSlot_small h n m k)
  commits _ _ _ := h
  installs _ _ _ _ hu := hu
  lapses := .nil

/-! ### The bound of the leakage -/

theorem lnorm_le {run : Run} {e : DistrictEntry} {f : Figures} (small : StoreSmall s.intake.store)
    (few : e.terms.length ≤ 8) (h : (settleDistrict s run e).outcome = .inr f) : f.lnorm ≤ 1186280596 := by
  obtain ⟨least, rfl, sum⟩ := settleDistrict_inr h
  have hour := hourSum_le (fun m k value hv => small m k value (availableValue_eq_some.1 hv)) sum few
  refine (normalise_le ?_ (factorOf_le e _)).2
  omega

/-- A baseline within the bound, if there is one. -/
def BaselineBounded (r : DistrictRuntime) : Prop := ∀ b ∈ r.baseline, b ≤ 1186280596

/-- The normalised leakage and the baseline of a record within the bound, where they are recorded. -/
def RecordBounded (x : NightRecord) : Prop :=
  (∀ l ∈ x.lnorm, l ≤ 1186280596) ∧ ∀ b ∈ x.baselineAfter, b ≤ 1186280596

section Judgement

variable {night lnorm : Nat} {e : DistrictEntry} {r : DistrictRuntime}

theorem updateBaseline_bounded {shift b : Nat} (hb : b ≤ 1186280596) (hl : lnorm ≤ 1186280596) :
    updateBaseline shift b lnorm ≤ 1186280596 :=
  le_trans (updateBaseline_le_max ..) (Nat.max_le.2 ⟨hb, hl⟩)

theorem BaselineBounded.getD (h : BaselineBounded r) : r.baseline.getD 0 ≤ 1186280596 := by
  cases hb : r.baseline with
  | none => exact Nat.zero_le _
  | some b => exact h b hb

theorem judgeLearning_bounded (h : BaselineBounded r) (hl : lnorm ≤ 1186280596) :
    BaselineBounded (judgeLearning e lnorm r).runtime := by
  intro b hb
  cases hr : r.baseline with
  | none =>
    rw [judgeLearning_baseline_of_none hr] at hb
    obtain rfl := Option.some.inj hb
    exact hl
  | some b0 =>
    rw [judgeLearning_baseline_of_some hr] at hb
    obtain rfl := Option.some.inj hb
    exact updateBaseline_bounded (h b0 hr) hl

/-- A baseline that is updated from the one held or held as it is stays within the bound. -/
theorem baselineBounded_of_held {r' : DistrictRuntime} {held : Prop} [Decidable held] {shift b0 : Nat}
    (h : BaselineBounded r) (h0 : b0 ≤ 1186280596) (hl : lnorm ≤ 1186280596)
    (hr : r'.baseline = if held then r.baseline else some (updateBaseline shift b0 lnorm)) :
    BaselineBounded r' := by
  intro b hb
  rw [hr] at hb
  split at hb
  · exact h b hb
  · obtain rfl := Option.some.inj hb
    exact updateBaseline_bounded h0 hl

theorem judgeAssessed_bounded (h : BaselineBounded r) (hl : lnorm ≤ 1186280596) :
    BaselineBounded (judgeAssessed night e lnorm r).runtime := by
  unfold judgeAssessed
  split
  · exact judgeLearning_bounded h hl
  · exact baselineBounded_of_held h h.getD hl judgeQuiet_baseline
  · exact baselineBounded_of_held h h.getD hl judgeWatch_baseline
  all_goals
    unfold BaselineBounded
    rw [judgeRaised_baseline]
    exact h

theorem judgeResult_bounded {x : Reason ⊕ Figures} (h : BaselineBounded r)
    (hx : ∀ f, x = .inr f → f.lnorm ≤ 1186280596) : BaselineBounded (judgeResult night e x r).runtime := by
  cases x with
  | inl reason => exact h
  | inr f => exact judgeAssessed_bounded h (hx f rfl)

theorem recordOf_bounded {x : Reason ⊕ Figures} {positions : Nat} {c : Conditions} {j : Judged}
    (hj : BaselineBounded j.runtime) (hx : ∀ f, x = .inr f → f.lnorm ≤ 1186280596) :
    RecordBounded (recordOf night e positions c x j) := by
  cases x with
  | inl reason => exact ⟨nofun, nofun⟩
  | inr f =>
    refine ⟨fun l hl => ?_, hj⟩
    obtain rfl := Option.some.inj hl
    exact hx f rfl

end Judgement

/-! ### The law of the bound -/

/-- The part of the law that speaks of the records: the term lists, the baselines and the records. -/
def RecordsBounded (s : State) : Prop :=
  (∀ x ∈ s.config.active.districts, x.2.terms.length ≤ 8) ∧
  (∀ pd ∈ s.config.pending, ∀ x ∈ pd.config.districts, x.2.terms.length ≤ 8) ∧
  (∀ x ∈ s.districts, BaselineBounded x.2) ∧ ∀ x ∈ s.history, ∀ r ∈ x.2, RecordBounded r

theorem boundLawful_iff : BoundLawful s ↔ StoreSmall s.intake.store ∧ RecordsBounded s := Iff.rfl

theorem mem_ringOf {h : Tbl (List NightRecord)} {d : Nat} {r : NightRecord} (hr : r ∈ ringOf h d) :
    ∃ x ∈ h, r ∈ x.2 := by
  unfold ringOf at hr
  cases hd : tget h d with
  | none =>
    rw [hd] at hr
    cases hr
  | some l =>
    rw [hd] at hr
    exact ⟨_, mem_of_tget hd, hr⟩

theorem mem_pushRecord {ring : List NightRecord} {x r : NightRecord} (h : x ∈ pushRecord ring r) :
    x ∈ ring ∨ x = r := by
  unfold pushRecord at h
  rcases List.mem_append.1 h with h | h
  · split at h
    · exact .inl h
    · exact .inl (List.mem_of_mem_drop h)
  · exact .inr (List.mem_singleton.1 h)

theorem newestAssessed_lnorm {ring : List NightRecord} {date l : Nat}
    (h : newestAssessed ring = some (date, l)) : ∃ r ∈ ring, r.lnorm = some l := by
  obtain ⟨r, hr, hx⟩ := List.exists_of_findSome?_eq_some h
  refine ⟨r, List.mem_reverse.1 hr, ?_⟩
  split at hx
  · cases hx
  all_goals
    obtain ⟨l', hl', he⟩ := Option.map_eq_some_iff.1 hx
    obtain ⟨-, rfl⟩ := Prod.mk.inj he
    exact hl'

namespace RecordsBounded

variable {d : Nat} {e : DistrictEntry} {r r' : DistrictRuntime}

theorem runtime (h : RecordsBounded s) (hr : tget s.districts d = some r) : BaselineBounded r :=
  h.2.2.1 _ (mem_of_tget hr)

theorem found (h : RecordsBounded s) (hd : districtOf s d = some (e, r)) :
    e.terms.length ≤ 8 ∧ BaselineBounded r := by
  obtain ⟨he, hr⟩ := districtOf_eq_some_iff.1 hd
  refine ⟨h.1 _ (mem_of_tget he), ?_⟩
  cases hr' : tget s.districts d with
  | none =>
    rw [hr, hr']
    exact nofun
  | some r0 =>
    obtain rfl := districtOf_runtime hd hr'
    exact h.runtime hr'

theorem setDistricts (h : RecordsBounded s) (hr : BaselineBounded r') :
    RecordsBounded (s.setDistricts (tput s.districts d r')) := by
  refine ⟨h.1, h.2.1, fun x hx => ?_, h.2.2.2⟩
  rcases mem_tput hx with rfl | hx
  · exact hr
  · exact h.2.2.1 x hx

theorem adoptSet (h : RecordsBounded u) {pd : PendingSet} (hp : u.config.pending = some pd) (night : Nat) :
    RecordsBounded (adoptSet pd night u) := by
  refine ⟨h.2.1 pd hp, nofun, fun x hx => ?_, fun x hx => h.2.2.2 x (List.mem_of_mem_filter hx)⟩
  obtain ⟨y, -, rfl⟩ := List.mem_map.1 hx
  rcases carryDistrict_cases u.config.active pd.config u.districts y.1 y.2 with
    ⟨o, r, -, hr, he | ⟨-, he⟩ | ⟨-, he⟩⟩ | ⟨-, he⟩ <;> simp only [he]
  · exact nofun
  · unfold BaselineBounded
    rw [(clampDistrict_lastSettled _ _).2]
    exact h.runtime hr
  · exact h.runtime hr
  · exact nofun

theorem handedOver (h : RecordsBounded s) (small : StoreSmall s.intake.store) {run : Run}
    (hd : districtOf s d = some (e, r)) : RecordsBounded (handedOver run d e r s) := by
  obtain ⟨few, bounded⟩ := h.found hd
  have figures : ∀ f, (settleDistrict s run e).outcome = .inr f → f.lnorm ≤ 1186280596 :=
    fun f => lnorm_le small few
  have judged := judgeResult_bounded (night := run.date) (e := e) bounded figures
  refine ⟨h.1, h.2.1, (h.setDistricts (d := d) (r' := settledRuntime run.date _) judged).2.2.1, fun x hx y hy => ?_⟩
  rcases mem_tput hx with rfl | hx
  · rcases mem_pushRecord hy with hy | rfl
    · obtain ⟨z, hz, hyz⟩ := mem_ringOf hy
      exact h.2.2.2 z hz y hyz
    · exact recordOf_bounded judged figures
  · exact h.2.2.2 x hx y hy

end RecordsBounded

theorem recordsKept_bounded (h : RecordsBounded s) (small : StoreSmall s.intake.store) :
    RecordsKept s RecordsBounded where
  congr {u v} hu same := by
    unfold RecordsBounded
    rw [same.config, same.districts, same.history]
    exact hu
  opens _ _ _ := h
  edits _ _ _ _ _ _ := h
  counts _ _ _ _ := h
  discards := h
  commits p hold _ passed := ⟨h.1, fun pd hpd x hx => by
    obtain rfl := Option.some.inj hpd
    exact ((passes_of_validate passed).terms hx).2.1, h.2.2.1, h.2.2.2⟩
  acks d e r a found _ _ := h.setDistricts (h.found found).2
  rebases d e r date b _ newest := h.setDistricts fun c hc => by
    obtain rfl := Option.some.inj hc
    obtain ⟨x, hx, hl⟩ := newestAssessed_lnorm newest
    obtain ⟨y, hy, hxy⟩ := mem_ringOf hx
    exact (h.2.2.2 y hy x hxy).1 _ hl
  relearns _ _ _ _ := h.setDistricts nofun
  judges run d e r found _ := h.handedOver small found
  installs u pd night hp hu := hu.adoptSet hp night
  bursts u d r r' cause night found raised hu := hu.setDistricts (by
    unfold BaselineBounded
    rw [(raiseBurst_lastSettled raised).2]
    exact hu.runtime found)
  empties u hu := ⟨hu.1, hu.2.1, hu.2.2.1, nofun⟩
  lapses := ⟨nofun, nofun, nofun, nofun⟩

/-- Settles O56: the slots by the updates of intake, the rest by the updates of the records. -/
theorem stepKeepsBoundLaw : Obligations.StepKeepsBoundLaw := by
  intro s t lawful hstep
  obtain ⟨small, bounded⟩ := boundLawful_iff.1 lawful
  refine boundLawful_iff.2 ⟨?_, ?_⟩
  · refine step_intake (P := fun u => StoreSmall u.intake.store) hstep small fun v same => intakeKept_small ?_
    rw [same.intake]
    exact small
  · refine step_records hstep bounded fun v same hi => recordsKept_bounded ?_ ?_
    · unfold RecordsBounded
      rw [same.config, same.districts, same.history]
      exact bounded
    · rw [hi]
      exact small

end Sys2Proof.Machine
end

section
/-!
PROOFS. The Burst Watch: the few updates through which a command can change it, and the law of one burst per night
(section 6.2).
-/

namespace Sys2Proof.Machine

variable {i : Option Instr} {s t u : State} {P : State → Prop}

/-! ### The updates of the Burst Watch -/

/-- A property of the Burst Watch that each of its updates keeps, but for the filing of values. -/
structure BurstKept (P : State → Prop) : Prop where
  congr : ∀ {u v}, P u → v.burst = u.burst → P v
  nights : ∀ u, P u → P (u.setBurst (clearBurst u.burst))
  drops : ∀ u d, P u → P (dropHeld d u)
  empties : ∀ u, P u → P (u.setBurst ⟨[], [], []⟩)

namespace BurstKept

variable (k : BurstKept P)
include k

theorem appended (h : P u) (kind : EventKind) (subject night : Nat) (detail : Int) :
    P (u.append kind subject night detail) := k.congr h (by simp)

theorem entersNight (h : P u) (n : NightPlan) : P (entersNight n u) := k.congr (k.nights u h) rfl

theorem takeHeld (h : P u) (d : Nat) : P (takeHeld d u) := by
  unfold Machine.takeHeld
  split
  · exact h
  · have dropped := k.drops u d h
    unfold enterBurst
    split
    · exact dropped
    · split
      · exact dropped
      · exact k.appended (by exact k.congr dropped rfl) _ _ _ _

theorem fireDue (h : P u) : P (fireDue u) :=
  fireDue_induction u h (fun n _ _ _ h => k.entersNight h n) (fun _ _ _ _ h => k.congr h rfl)
    fun _ v _ _ h => k.congr (takeAllHeld_induction v h fun d _ h => k.takeHeld h d) rfl

theorem replan (h : P u) : P (replan u) := by
  rw [replan_frame]
  exact k.congr h rfl

theorem install (h : P u) (night : Nat) : P (install night u) := k.congr h (install_frame night u).burst

theorem installNow (h : P u) : P (installNow u) := k.congr h (installNow_frame u).burst

theorem enterFirst (h : P u) : P (enterFirst u) := by
  rcases enterFirst_cases u with ⟨closed, o, -, he⟩ | ⟨closed, p, -, -, he⟩ <;> rw [he]
  · exact k.congr h rfl
  · exact k.entersNight (by exact k.congr h rfl) p

theorem setTime (h : P u) (p : Port) (t : Nat) : P (setTime p t u) := by
  unfold Machine.setTime
  split
  · exact k.fireDue (k.appended (by exact k.congr h rfl) _ _ _ _)
  · unfold setTimeInvalid
    dsimp only
    split
    · exact k.appended (by exact k.congr h rfl) _ _ _ _
    all_goals
      exact k.fireDue (k.appended (k.installNow (k.enterFirst (by exact k.congr h rfl))) _ _ _ _)

theorem tick (h : P u) : P (tick u) := by
  unfold Machine.tick
  split
  · exact k.fireDue (k.congr h rfl)
  · unfold rangeEnd
    dsimp only
    split
    · exact k.installNow (k.congr h rfl)
    all_goals exact k.congr h rfl

theorem settlementEnd (h : P u) : P (settlementEndEvent u) := by
  unfold settlementEndEvent
  split
  · rename_i p _ _
    rw [endSettlement_eq]
    have settled : P (settledState p u) := by
      refine k.install (k.congr h ?_) _
      rw [expireSuspensions_keeps State.burst _ (fun _ _ => rfl) (fun u => u.append_burst)]
      exact updateMeters_keeps State.burst _ (fun _ _ => rfl) (fun u => u.append_burst) _
    refine k.fireDue ?_
    unfold planAfter
    split
    · exact k.congr settled rfl
    · split
      · exact k.enterFirst (k.congr settled rfl)
      · exact k.congr settled rfl
  · exact h

theorem enterStartUp (h : P u) : P (enterStartUp u) := by
  rcases enterStartUp_cases u with ⟨-, he⟩ | ⟨-, ⟨closed, o, -, he⟩ | ⟨closed, p, -, -, -, -, he⟩⟩ <;> rw [he]
  · exact k.congr h rfl
  · exact k.congr h rfl
  · unfold reenterNight
    rw [enterNight_eq]
    exact k.congr (k.nights u h) rfl

theorem startMain (h : P u) : P (startMain u) := k.congr (k.empties u h) rfl

theorem startUp (h : P u) : P (Machine.fireDue (Machine.installNow (appendBackupLow u))) := by
  refine k.fireDue (k.installNow ?_)
  unfold appendBackupLow
  split
  · exact k.appended h _ _ _ _
  · exact h

end BurstKept

/-- What holds of the Burst Watch before an effect and is kept by each of its updates, and by the filing of values,
holds after it. -/
theorem Effect.burst (he : Effect i s u) (h : P s) (k : BurstKept P)
    (values : ∀ p m e x vs, u = (takeValues p m e x vs s).1 → P u) : P u := by
  cases he with
  | nothing => exact h
  | values p m e x vs small => exact values p m e x vs rfl
  | setsTime p t => exact k.setTime h p t
  | opensHold | edits | countsHold | discards | resumes | rebases | relearns | readsEvents | setsLatch
  | backupReturns => exact k.congr h rfl
  | dropsHold hold cause => exact k.appended (by exact k.congr h rfl) _ _ _ _
  | commits p hold => exact k.fireDue (k.installNow (k.congr h rfl))
  | suspends m x =>
    unfold markSuspended
    split <;> exact k.congr h rfl
  | acks => exact k.appended (by exact k.congr h rfl) _ _ _ _
  | setsRules rules => exact k.fireDue (k.replan (k.congr h rfl))
  | ticks => exact k.tick h
  | fires => exact k.fireDue h
  | infills => rcases infillEvent_cases s with hu | ⟨run, -, hu⟩ <;> rw [hu] <;> exact k.congr h rfl
  | handsOver =>
    rcases handOverEvent_cases s with hu | ⟨run, d, rest, -, -, hu | ⟨e, r, -, -, hu⟩⟩ <;> rw [hu]
    · exact h
    · exact k.congr h rfl
    · rw [judgeAndRecord_eq]
      exact k.congr h rfl
  | completes =>
    rcases completeEvent_cases s with hu | ⟨run, -, hu⟩ <;> rw [hu]
    · exact h
    · exact k.congr (k.appended h .nightSettled 0 run.date (settledDetail run)) rfl
  | settles => exact k.settlementEnd h
  | takesHeld d => exact k.takeHeld h d
  | powersUp b =>
    refine k.startUp ?_
    have entered : P (Machine.enterStartUp (Machine.startMain (judgeRetention b s))) := by
      refine k.enterStartUp (k.startMain ?_)
      unfold judgeRetention
      split <;> exact k.congr h rfl
    split
    · exact k.appended entered _ _ _ _
    · exact entered
  | resets => exact k.startUp (k.enterStartUp (k.startMain (k.congr h rfl)))
  | losesPower => exact k.congr (k.startMain (by exact k.congr h rfl)) rfl
  | backupFalls =>
    unfold Machine.backupFalls
    split
    · unfold appendBackupLow
      split
      · exact k.appended (by exact k.congr h rfl) _ _ _ _
      · exact k.congr h rfl
    · exact h

/-! ### What the watch can do at an offer -/

/-- What the examination of a district can do: mark, or mark and find a burst, where the district is watched. -/
theorem examine_cases (p : NightPlan) (k : Nat) (s : State) (d : Nat) (e : DistrictEntry) :
    examine p k s (d, e) = s ∨
    ∃ b marks, watchedBaseline s d e = some b ∧
      marks = (newMarks s e b p.length k).foldl insertIdx (marksOf s.burst d) ∧
      (examine p k s (d, e) = s.setBurst { s.burst with marks := tput s.burst.marks d marks } ∨
        examine p k s (d, e) = s.setBurst
          { marks := tput s.burst.marks d marks
            raised := insertIdx s.burst.raised d
            held := tput s.burst.held d p.date }) := by
  unfold examine
  cases hw : watchedBaseline s d e with
  | none => exact .inl rfl
  | some b =>
    dsimp only
    split
    · exact .inl rfl
    · refine .inr ⟨b, _, rfl, rfl, ?_⟩
      split
      · exact .inr rfl
      · exact .inl rfl

/-- A watched district has no burst of this night yet, and the night is not DISTURBED (R127). -/
theorem watchedBaseline_some {d : Nat} {e : DistrictEntry} {b : Nat} (h : watchedBaseline s d e = some b) :
    d ∉ s.burst.raised ∧ s.calendar.disturbed = false := by
  unfold watchedBaseline at h
  split at h
  · cases h
  · split at h
    · cases h
    · rename_i watched
      simp only [not_or, hasIdx_iff, Bool.not_eq_true] at watched
      exact ⟨watched.2.2.2.1, watched.2.2.2.2.2⟩

/-- What each examination keeps, the filing of values keeps, together with every change outside the Burst Watch and the
calendar. -/
theorem takeValues_induction (h : P s)
    (congr : ∀ u v, P u → v.burst = u.burst → v.calendar = u.calendar → P v)
    (examines : ∀ p k u d e, filingPlan s.calendar.cycle = some p → u.calendar = s.calendar → P u →
      P (examine p k u (d, e)))
    (port : Port) (m : Nat) (e : MeterEntry) (x : Nat) (vs : List Nat) : P (takeValues port m e x vs s).1 := by
  have offered (p : NightPlan) (hp : filingPlan s.calendar.cycle = some p) (m k : Nat) (u : State)
      (hc : u.calendar = s.calendar) (hu : P u) : P (takeOffer p m k u) := by
    unfold takeOffer
    generalize u.config.active.districts.filter _ = l
    induction l generalizing u with
    | nil => exact hu
    | cons y rest ih =>
      refine ih _ ?_ (examines p k u y.1 y.2 hp hc hu)
      rw [examine_frame]
      exact hc
  have heard (p : Port) (m : Nat) (u : State) (hu : P u) : P (hear p m u) := by
    refine congr u _ hu ?_ (hear_frame p m u).calendar
    unfold hear
    dsimp only
    split
    · rfl
    · exact State.append_burst _ _ _ _ _
  have applied (u : State) (hc : u.calendar = s.calendar) (hu : P u) (x v : Nat) (f : Fate) :
      P (applyFate port m e x v f u) := by
    have heard := heard port m u hu
    unfold applyFate
    split
    · dsimp only
      split
      · refine congr _ _ heard ?_ (reportRange_frame m v _).calendar
        unfold reportRange
        split
        · rfl
        · exact State.append_burst _ _ _ _ _
      · rename_i p hp _
        have filed := congr _ (fileSlot m (x - p.window) v (hear port m u)) heard rfl rfl
        unfold offerSlot
        split
        · refine offered p (by rw [← hc]; exact hp) _ _ _ ?_ filed
          exact ((fileSlot_frame m _ v _).calendar.trans (hear_frame port m u).calendar).trans hc
        · exact filed
      · exact congr _ _ heard rfl rfl
      · exact heard
    · exact hu
  have all (u : State) (hc : u.calendar = s.calendar) (hu : P u) (x : Nat) :
      P (takeValues port m e x vs u).1 := by
    induction vs generalizing x u with
    | nil => exact hu
    | cons v rest ih =>
      exact ih _ ((applyFate_frame port m e x v _ u).calendar.trans hc) (applied u hc hu x v _) _
  exact all s rfl h x

/-! ### Held entries -/

/-- The two states' held entries: every entry held after was held before. -/
def HeldShrinks (s t : State) : Prop :=
  ∀ d n, tget t.burst.held d = some n → tget s.burst.held d = some n

/-- No entry is held. -/
def HeldNone (s : State) : Prop := ∀ d, tget s.burst.held d = none

theorem heldShrinks_kept (s : State) : BurstKept (HeldShrinks s) where
  congr hu hb := by
    unfold HeldShrinks
    rw [hb]
    exact hu
  nights _ hu := hu
  drops u d hu := fun k n hk => by
    refine hu k n ?_
    by_cases hkd : k = d
    · subst hkd
      simp [dropHeld] at hk
    · simpa [dropHeld, tget_tdel_ne _ _ _ hkd] using hk
  empties _ _ := nofun

theorem HeldNone.ofShrinks (h : HeldNone s) (shrinks : HeldShrinks s t) : HeldNone t := by
  intro d
  refine Option.eq_none_iff_forall_ne_some.2 fun n hn => ?_
  have := shrinks d n hn
  rw [h d] at this
  cases this

theorem heldNone_kept : BurstKept HeldNone where
  congr hu hb := by
    unfold HeldNone
    rw [hb]
    exact hu
  nights _ hu := hu
  drops u d hu := hu.ofShrinks ((heldShrinks_kept u).drops u d fun _ _ h => h)
  empties _ _ := fun _ => rfl

theorem BurstLawful.ofNone (h : HeldNone s) : BurstLawful s := by
  intro d n hn
  rw [h d] at hn
  cases hn

/-- In the phases without a window that values can reach, no entry is held. -/
theorem BurstLawful.heldNone (h : BurstLawful s) (outside : filingPlan s.calendar.cycle = none) : HeldNone s := by
  intro d
  refine Option.eq_none_iff_forall_ne_some.2 fun n hn => ?_
  obtain ⟨-, p, hp | hp, -⟩ := h d n hn <;> simp [filingPlan, hp] at outside

theorem enterBurst_burst (d night : Nat) (s : State) : (enterBurst d night s).burst = s.burst := by
  unfold enterBurst
  split
  · rfl
  · split
    · rfl
    · exact State.append_burst _ _ _ _ _

/-- The district whose entry is taken holds none after. -/
theorem takeHeld_held (d : Nat) (s : State) : tget (takeHeld d s).burst.held d = none := by
  unfold takeHeld
  split
  · assumption
  · rw [enterBurst_burst]
    exact tget_tdel_self _ _

/-- At grace end every held entry is taken. -/
theorem takeAllHeld_heldNone (s : State) : HeldNone (takeAllHeld s) := by
  have taken (l : List Nat) (u : State) (d : Nat) (hd : tget u.burst.held d = none ∨ d ∈ l) :
      tget (l.foldl (fun r d => takeHeld d r) u).burst.held d = none := by
    induction l generalizing u with
    | nil => simpa using hd
    | cons x rest ih =>
      refine ih _ ?_
      rcases hd with hd | hd
      · refine .inl (Option.eq_none_iff_forall_ne_some.2 fun n hn => ?_)
        have := (heldShrinks_kept u).takeHeld (u := u) (fun _ _ h => h) x d n hn
        rw [hd] at this
        cases this
      · rcases List.mem_cons.1 hd with rfl | hd
        · exact .inl (takeHeld_held d u)
        · exact .inr hd
  intro d
  refine taken _ s d ?_
  cases h : tget s.burst.held d with
  | none => exact .inl rfl
  | some n => exact .inr ((mem_heldOrder s d).2 (List.mem_map.2 ⟨_, mem_of_tget h, rfl⟩))

end Sys2Proof.Machine
end

section
/-!
PROOFS. The law of one burst per night (section 6.2), as every step keeps it.
-/

namespace Sys2Proof.Machine

variable {i : Option Instr} {s t u v : State} {n p : NightPlan}

/-! ### The marks of a night that stays current -/

/-- The night of plan n is current and its window open to values. -/
def InWindow (s : State) (n : NightPlan) : Prop := s.calendar.cycle = .opened n ∨ s.calendar.cycle = .grace n

theorem filingPlan_eq_some : filingPlan s.calendar.cycle = some n ↔ InWindow s n := by
  unfold filingPlan InWindow
  split <;> simp_all

/-- Every burst-raised mark, and the mark DISTURBED, stands after as before. -/
def MarksKept (s t : State) : Prop :=
  (∀ d ∈ s.burst.raised, d ∈ t.burst.raised) ∧ (s.calendar.disturbed = true → t.calendar.disturbed = true)

theorem MarksKept.of (hr : t.burst.raised = s.burst.raised) (hd : t.calendar.disturbed = s.calendar.disturbed) :
    MarksKept s t := ⟨fun _ h => hr ▸ h, fun h => hd ▸ h⟩

theorem takeHeld_raised (d : Nat) (s : State) : (takeHeld d s).burst.raised = s.burst.raised := by
  unfold takeHeld
  split
  · rfl
  · rw [enterBurst_burst]
    rfl

theorem takeAllHeld_raised (s : State) : (takeAllHeld s).burst.raised = s.burst.raised :=
  takeAllHeld_induction (P := fun u => u.burst.raised = s.burst.raised) s rfl fun d u hu =>
    (takeHeld_raised d u).trans hu

/-- The night stays current with its marks, or is settled from now on, with no entry held. -/
def StaysCurrent (n : NightPlan) (s t : State) : Prop :=
  MarksKept s t ∧ (InWindow t n ∨ (t.calendar.cycle = .settling n ∧ HeldNone t))

theorem StaysCurrent.of (h : InWindow s n) (hc : t.calendar.cycle = s.calendar.cycle)
    (hr : t.burst.raised = s.burst.raised) (hd : t.calendar.disturbed = s.calendar.disturbed) :
    StaysCurrent n s t := by
  refine ⟨.of hr hd, .inl ?_⟩
  unfold InWindow
  rw [hc]
  exact h

/-- The firing of boundaries keeps the night current. -/
theorem fireDue_staysCurrent (h : StaysCurrent n s v) : StaysCurrent n s (fireDue v) := by
  refine fireDue_induction (P := StaysCurrent n s) v h ?_ ?_ ?_
  · rintro p u hc - ⟨-, hu⟩
    rcases hu with (hu | hu) | ⟨hu, -⟩ <;> rw [hu] at hc <;> cases hc
  · rintro p u hc - ⟨marks, hu⟩
    rcases hu with (hu | hu) | ⟨hu, -⟩ <;> rw [hu] at hc <;> cases hc
    exact ⟨marks, .inl (.inr rfl)⟩
  · rintro p u hc - ⟨marks, hu⟩
    rcases hu with (hu | hu) | ⟨hu, -⟩ <;> rw [hu] at hc <;> cases hc
    refine ⟨⟨fun d hd => ?_, fun hd => ?_⟩, .inr ⟨rfl, takeAllHeld_heldNone u⟩⟩
    · have := marks.1 d hd
      rw [← takeAllHeld_raised u] at this
      exact this
    · have := marks.2 hd
      rw [← (takeAllHeld_keeps u).2.2.2.1] at this
      exact this

theorem InWindow.current (h : InWindow s n) : NightCurrent s.calendar.cycle := by
  rcases h with h | h
  · exact ⟨n, .inl h⟩
  · exact ⟨n, .inr (.inl h)⟩

theorem replan_of_current (h : NightCurrent s.calendar.cycle) : replan s = s := by
  unfold replan
  obtain ⟨n, hc | hc | hc⟩ := h <;> rw [hc]

theorem setTime_staysCurrent (lawful : CycleLawful s) (h : InWindow s n) (on : s.retention.powered = true)
    (p : Port) (x : Nat) : StaysCurrent n s (setTime p x s) := by
  have valid : s.calendar.valid = true := by
    have fits := lawful.2.2.1 on
    rcases h with hc | hc <;> rw [hc] at fits <;> exact fits
  unfold setTime
  rw [if_pos valid]
  have stepped : (stepCalendar s.calendar x).cycle = s.calendar.cycle ∧
      (stepCalendar s.calendar x).disturbed = s.calendar.disturbed := by
    unfold stepCalendar
    dsimp only
    split <;> exact ⟨rfl, rfl⟩
  refine fireDue_staysCurrent (.of h ?_ ?_ ?_)
  · rw [State.append_calendar]
    exact stepped.1
  · rw [State.append_burst]
    rfl
  · rw [State.append_calendar]
    exact stepped.2

theorem tick_staysCurrent (h : InWindow s n) : StaysCurrent n s (tick s) := by
  unfold tick
  split
  · exact fireDue_staysCurrent (.of h rfl rfl rfl)
  · have halt : haltDay s.calendar.cycle = s.calendar.cycle := by rcases h with hc | hc <;> rw [hc] <;> rfl
    unfold rangeEnd
    dsimp only
    split
    · rename_i hc
      rcases h with h | h <;> rw [h] at hc <;> cases hc
    all_goals exact .of h halt rfl rfl

/-- What an effect can do in a window: the night stays current, or the main domain loses its content. -/
theorem Effect.staysCurrent (he : Effect i s u) (lawful : CycleLawful s) (h : InWindow s n)
    (values : ∀ p m e x vs, MarksKept s (takeValues p m e x vs s).1) :
    StaysCurrent n s u ∨ (HeldNone u ∧ (u.calendar.cycle = .halted ∨ i = some .resetLine)) := by
  cases he with
  | nothing | opensHold | edits | countsHold | discards | resumes | rebases | relearns | readsEvents
  | setsLatch | backupReturns => exact .inl (.of h rfl rfl rfl)
  | values p m e x vs =>
    refine .inl ⟨values p m e x vs, .inl ?_⟩
    unfold InWindow
    rw [(takeValues_frame p m e x vs s).calendar]
    exact h
  | setsTime p x on => exact .inl (setTime_staysCurrent lawful h on p x)
  | dropsHold | acks =>
    refine .inl (.of h ?_ ?_ ?_)
    · exact congrArg Calendar.cycle (State.append_calendar _ _ _ _ _)
    · exact congrArg BurstWatch.raised (State.append_burst _ _ _ _ _)
    · exact congrArg Calendar.disturbed (State.append_calendar _ _ _ _ _)
  | commits p hold =>
    unfold commitSet
    rw [installNow_of_current (by exact h.current)]
    exact .inl (fireDue_staysCurrent (.of h rfl rfl rfl))
  | suspends m x =>
    unfold markSuspended
    split <;> exact .inl (.of h rfl rfl rfl)
  | setsRules rules =>
    rw [replan_of_current (by exact h.current)]
    exact .inl (fireDue_staysCurrent (.of h rfl rfl rfl))
  | ticks => exact .inl (tick_staysCurrent h)
  | fires => exact .inl (fireDue_staysCurrent (.of h rfl rfl rfl))
  | infills =>
    rcases infillEvent_cases s with hu | ⟨run, -, hu⟩ <;> rw [hu] <;> exact .inl (.of h rfl rfl rfl)
  | handsOver =>
    rcases handOverEvent_cases s with hu | ⟨run, d, rest, -, -, hu | ⟨e, r, -, -, hu⟩⟩ <;> rw [hu]
    · exact .inl (.of h rfl rfl rfl)
    · exact .inl (.of h rfl rfl rfl)
    · rw [judgeAndRecord_eq]
      exact .inl (.of h rfl rfl rfl)
  | completes =>
    rcases completeEvent_cases s with hu | ⟨run, -, hu⟩ <;> rw [hu]
    · exact .inl (.of h rfl rfl rfl)
    · have hc := State.append_calendar s .nightSettled 0 run.date (settledDetail run)
      have hb := State.append_burst s .nightSettled 0 run.date (settledDetail run)
      exact .inl (.of h (congrArg Calendar.cycle hc) (congrArg BurstWatch.raised hb)
        (congrArg Calendar.disturbed hc))
  | settles =>
    have same : settlementEndEvent s = s := by
      unfold settlementEndEvent
      rcases h with hc | hc <;> rw [hc]
    rw [same]
    exact .inl (.of h rfl rfl rfl)
  | takesHeld d =>
    have hc := (takeHeld_keeps d s).2.2.2.1
    exact .inl (.of h (by rw [hc]) (takeHeld_raised d s) (by rw [hc]))
  | powersUp b off =>
    have halted := lawful.2.2.2 off
    rcases h with hc | hc <;> rw [hc] at halted <;> cases halted
  | resets _ taken =>
    have lost : HeldNone (loseMain s) := fun _ => rfl
    exact .inr ⟨heldNone_kept.startUp (heldNone_kept.enterStartUp lost), .inr taken⟩
  | losesPower => exact .inr ⟨fun _ => rfl, .inl rfl⟩
  | backupFalls =>
    unfold Machine.backupFalls
    split
    · unfold appendBackupLow
      split
      · refine .inl (.of h ?_ ?_ ?_)
        · exact congrArg Calendar.cycle (State.append_calendar _ _ _ _ _)
        · exact congrArg BurstWatch.raised (State.append_burst _ _ _ _ _)
        · exact congrArg Calendar.disturbed (State.append_calendar _ _ _ _ _)
      · exact .inl (.of h rfl rfl rfl)
    · exact .inl (.of h rfl rfl rfl)

/-! ### The night in SETTLING -/

theorem fireDue_carriedPlan (s : State) :
    carriedPlan (fireDue s).calendar.cycle = carriedPlan s.calendar.cycle := by
  refine fireDue_induction (P := fun u => carriedPlan u.calendar.cycle = carriedPlan s.calendar.cycle) s rfl
    ?_ ?_ ?_ <;>
  · intro n u hc _ hu
    rw [← hu, hc]
    rfl

theorem windowStartOf_le_succ (night : NightParams) (rules : DstRules) (d : Nat) :
    windowStartOf night rules d ≤ windowStartOf night rules (d + 1) := by
  have offset (k : Nat) : nightOffset rules k ≤ 4 := by
    unfold nightOffset
    split <;> omega
  have := offset (d + 1)
  unfold windowStartOf
  split <;> omega

theorem endsAt_mono (night : NightParams) (rules : DstRules) {d d' : Nat} (h : d ≤ d') :
    (planFor night rules d).endsAt ≤ (planFor night rules d').endsAt := by
  have starts : windowStartOf night rules d ≤ windowStartOf night rules d' :=
    monotone_nat_of_le_succ (windowStartOf_le_succ night rules) h
  simp only [NightPlan.endsAt, planFor, Config.intervalSeconds]
  omega

/-- An entry at a first setting leaves no boundary that t has reached. -/
theorem enterFirst_ahead (s : State) : (enterFirst s).calendar.cycle = .day none ∨
    (∃ p, (enterFirst s).calendar.cycle = .day (some p) ∧ s.calendar.t < p.startsAt) ∨
    ∃ p, (enterFirst s).calendar.cycle = .opened p ∧ s.calendar.t < p.endsAt := by
  unfold enterFirst
  dsimp only
  split
  · exact .inl rfl
  · rename_i p hp
    obtain ⟨d, hd, hplan⟩ := Option.bind_eq_some_iff.1 hp
    obtain ⟨f, hf, rfl⟩ := Option.map_eq_some_iff.1 hd
    split
    · rename_i before
      exact .inr (.inl ⟨p, rfl, before⟩)
    · refine .inr (.inr ⟨p, by rw [enterNight_eq]; rfl, ?_⟩)
      have unended : s.calendar.t < (planFor s.config.active.night s.calendar.rules f).endsAt := by
        simpa using List.find?_some hf
      rw [plan_eq_planFor hplan]
      exact unended.trans_le (endsAt_mono _ _ (firstOutside_spec _ _).1)

theorem enterFirst_t (s : State) : (enterFirst s).calendar.t = s.calendar.t := by
  rcases enterFirst_cases s with ⟨closed, o, -, he⟩ | ⟨closed, p, -, -, he⟩ <;> rw [he] <;> rfl

theorem fireDue_enterFirst (s : State) : fireDue (enterFirst s) = enterFirst s := by
  have fires := fireDue_firesTo (enterFirst s)
  unfold FiresTo at fires
  rcases enterFirst_ahead s with hc | ⟨p, hc, before⟩ | ⟨p, hc, before⟩ <;> rw [hc] at fires
  · exact fires
  · exact fires.1 (by rw [enterFirst_t]; exact before)
  · exact fires.1 (by rw [enterFirst_t]; exact before)

/-- A settlement end leaves its night. -/
theorem endSettlement_leaves (p : NightPlan) (s : State) : (endSettlement p s).calendar.cycle ≠ .settling p := by
  rw [endSettlement_eq]
  unfold planAfter
  split
  · rw [fireDue_of_halted rfl]
    simp
  · split
    · rw [fireDue_enterFirst]
      rcases enterFirst_ahead _ with hc | ⟨q, hc, -⟩ | ⟨q, hc, -⟩ <;> rw [hc] <;> simp
    · intro hc
      have carried := fireDue_carriedPlan ((settledState p s).setCalendar
        { (settledState p s).calendar with
          cycle := .day ((settledState p s).plan
            (firstOutside (settledState p s).calendar.leftOut (p.date + 1))) })
      rw [hc] at carried
      have planned := (plan_eq_some (Eq.symm carried)).2
      have later := (firstOutside_spec (settledState p s).calendar.leftOut (p.date + 1)).1
      omega

theorem fireDue_of_settling (h : s.calendar.cycle = .settling n) : fireDue s = s := by
  have fires := fireDue_firesTo s
  unfold FiresTo at fires
  rw [h] at fires
  exact fires

/-- While a night is in SETTLING, no effect but a start-up by the reset line changes its marks. -/
theorem Effect.settlingMarks (he : Effect i s u) (lawful : CycleLawful s) (h : s.calendar.cycle = .settling n)
    (hu : u.calendar.cycle = .settling n) (notReset : i ≠ some .resetLine) : MarksKept s u := by
  have current : NightCurrent s.calendar.cycle := ⟨n, .inr (.inr h)⟩
  cases he with
  | nothing | opensHold | edits | countsHold | discards | resumes | rebases | relearns | readsEvents
  | setsLatch | backupReturns => exact .of rfl rfl
  | values p m e x vs =>
    have burst : (takeValues p m e x vs s).1.burst = s.burst := by
      refine takeValues_induction (P := fun v => v.burst = s.burst) rfl (fun _ _ hu hb _ => hb.trans hu) ?_ p m e x vs
      intro q _ _ _ _ hq
      simp [filingPlan, h] at hq
    exact .of (by rw [burst]) (by rw [(takeValues_frame p m e x vs s).calendar])
  | setsTime p x on =>
    unfold setTime
    split
    · have stepped : (stepCalendar s.calendar x).cycle = .settling n ∧
          (stepCalendar s.calendar x).disturbed = s.calendar.disturbed := by
        unfold stepCalendar
        dsimp only
        split <;> exact ⟨h, rfl⟩
      unfold setTimeValid
      rw [fireDue_of_settling (n := n) (by rw [State.append_calendar]; exact stepped.1)]
      refine .of ?_ ?_
      · rw [State.append_burst]
        rfl
      · rw [State.append_calendar]
        exact stepped.2
    · unfold setTimeInvalid
      rw [h]
      dsimp only
      refine .of ?_ ?_
      · rw [State.append_burst]
        rfl
      · rw [State.append_calendar]
        rfl
  | dropsHold | acks =>
    refine .of ?_ ?_
    · exact congrArg BurstWatch.raised (State.append_burst _ _ _ _ _)
    · exact congrArg Calendar.disturbed (State.append_calendar _ _ _ _ _)
  | commits p hold =>
    unfold commitSet
    rw [installNow_of_current (by exact current), fireDue_of_settling (by exact h)]
    exact .of rfl rfl
  | suspends m x =>
    unfold markSuspended
    split <;> exact .of rfl rfl
  | setsRules rules =>
    rw [replan_of_current (by exact current), fireDue_of_settling (by exact h)]
    exact .of rfl rfl
  | ticks =>
    unfold tick
    split
    · rw [fireDue_of_settling (by exact h)]
      exact .of rfl rfl
    · unfold rangeEnd
      rw [h]
      exact .of rfl rfl
  | fires =>
    rw [fireDue_of_settling h]
    exact .of rfl rfl
  | infills => rcases infillEvent_cases s with hv | ⟨run, -, hv⟩ <;> rw [hv] <;> exact .of rfl rfl
  | handsOver =>
    rcases handOverEvent_cases s with hv | ⟨run, d, rest, -, -, hv | ⟨e, r, -, -, hv⟩⟩ <;> rw [hv]
    · exact .of rfl rfl
    · exact .of rfl rfl
    · rw [judgeAndRecord_eq]
      exact .of rfl rfl
  | completes =>
    rcases completeEvent_cases s with hv | ⟨run, -, hv⟩ <;> rw [hv]
    · exact .of rfl rfl
    · have hc := State.append_calendar s .nightSettled 0 run.date (settledDetail run)
      have hb := State.append_burst s .nightSettled 0 run.date (settledDetail run)
      exact .of (congrArg BurstWatch.raised hb) (congrArg Calendar.disturbed hc)
  | settles =>
    unfold settlementEndEvent at hu ⊢
    rw [h] at hu ⊢
    split
    · rename_i p _ hp hs
      cases hp
      rw [hs] at hu
      exact absurd hu (endSettlement_leaves n s)
    · exact .of rfl rfl
  | takesHeld d => exact .of (takeHeld_raised d s) (by rw [(takeHeld_keeps d s).2.2.2.1])
  | powersUp b off =>
    rw [lawful.2.2.2 off] at h
    cases h
  | resets _ taken => exact absurd taken notReset
  | losesPower => cases hu
  | backupFalls =>
    unfold Machine.backupFalls
    split
    · unfold appendBackupLow
      split
      · refine .of ?_ ?_
        · exact congrArg BurstWatch.raised (State.append_burst _ _ _ _ _)
        · exact congrArg Calendar.disturbed (State.append_calendar _ _ _ _ _)
      · exact .of rfl rfl
    · exact .of rfl rfl

/-! ### The entries that values find -/

/-- A new entry is held only for a district that was watched. -/
def NewHeldWatched (s t : State) : Prop :=
  ∀ d k, tget s.burst.held d = none → tget t.burst.held d = some k →
    d ∉ s.burst.raised ∧ s.calendar.disturbed = false

theorem HeldShrinks.newHeldWatched (h : HeldShrinks s t) : NewHeldWatched s t := by
  intro d k none held
  rw [h d k held] at none
  cases none

/-- What the filing of values keeps of the watch: the marks stand, a new entry is held only for a district that was
watched, and every entry held is of the current night. -/
structure Filed (s u : State) : Prop where
  raised : ∀ d ∈ s.burst.raised, d ∈ u.burst.raised
  watched : NewHeldWatched s u
  held : ∀ d k, tget u.burst.held d = some k → d ∈ u.burst.raised ∧ ∃ p, InWindow s p ∧ p.date = k

theorem Filed.examine (h : Filed s u) (hp : filingPlan s.calendar.cycle = some p) (hc : u.calendar = s.calendar)
    (k d : Nat) (e : DistrictEntry) : Filed s (examine p k u (d, e)) := by
  rcases examine_cases p k u d e with he | ⟨b, marks, watch, -, he | he⟩ <;> rw [he]
  · exact h
  · exact ⟨h.raised, h.watched, h.held⟩
  · obtain ⟨unraised, calm⟩ := watchedBaseline_some watch
    refine ⟨fun x hx => (mem_insertIdx _ _ _).2 (.inr (h.raised x hx)), fun x y none held => ?_, fun x y held => ?_⟩
    · simp only [State.setBurst_burst, tget_tput] at held
      split at held
      · rename_i hx
        subst hx
        exact ⟨fun hr => unraised (h.raised _ hr), by rw [← hc]; exact calm⟩
      · exact h.watched x y none held
    · simp only [State.setBurst_burst, tget_tput, mem_insertIdx] at held ⊢
      split at held
      · rename_i hx
        obtain rfl := Option.some.inj held
        exact ⟨.inl hx, p, filingPlan_eq_some.1 hp, rfl⟩
      · obtain ⟨member, night⟩ := h.held x y held
        exact ⟨.inr member, night⟩

theorem takeValues_filed (h : BurstLawful s) (port : Port) (m : Nat) (e : MeterEntry) (x : Nat) (vs : List Nat) :
    Filed s (takeValues port m e x vs s).1 := by
  have base : Filed s s := ⟨fun _ h => h, (show HeldShrinks s s from fun _ _ h => h).newHeldWatched, h⟩
  refine takeValues_induction (P := Filed s) base (fun u v hu hb _ => ?_)
    (fun p k u d e hp hc hu => hu.examine hp hc k d e) port m e x vs
  refine ⟨by rw [hb]; exact hu.raised, fun d k none held => hu.watched d k none (by rw [← hb]; exact held), ?_⟩
  rw [hb]
  exact hu.held

theorem takeValues_marksKept (h : BurstLawful s) (port : Port) (m : Nat) (e : MeterEntry) (x : Nat)
    (vs : List Nat) : MarksKept s (takeValues port m e x vs s).1 :=
  ⟨(takeValues_filed h port m e x vs).raised, by
    rw [(takeValues_frame port m e x vs s).calendar]
    exact id⟩

/-- An effect finds a new entry only for a district that was watched. -/
theorem Effect.newHeldWatched (he : Effect i s u) (h : BurstLawful s) : NewHeldWatched s u := by
  by_cases filed : ∃ p m e x vs, u = (takeValues p m e x vs s).1
  · obtain ⟨p, m, e, x, vs, rfl⟩ := filed
    exact (takeValues_filed h p m e x vs).watched
  · exact (he.burst (fun _ _ h => h) (heldShrinks_kept s)
      fun p m e x vs hu => absurd ⟨p, m, e, x, vs, hu⟩ filed).newHeldWatched

/-- An effect keeps the law of held entries. -/
theorem Effect.burstLawful (he : Effect i s u) (lawful : CycleLawful s) (h : BurstLawful s) : BurstLawful u := by
  by_cases filed : ∃ p m e x vs, u = (takeValues p m e x vs s).1
  · obtain ⟨p, m, e, x, vs, rfl⟩ := filed
    intro d k held
    rw [(takeValues_frame p m e x vs s).calendar]
    exact (takeValues_filed h p m e x vs).held d k held
  have shrinks : HeldShrinks s u := he.burst (fun _ _ h => h) (heldShrinks_kept s)
    fun p m e x vs hu => absurd ⟨p, m, e, x, vs, hu⟩ filed
  cases hp : filingPlan s.calendar.cycle with
  | none => exact .ofNone ((h.heldNone hp).ofShrinks shrinks)
  | some n =>
    have window := filingPlan_eq_some.1 hp
    rcases he.staysCurrent lawful window (takeValues_marksKept h) with ⟨marks, hu | ⟨-, none⟩⟩ | ⟨none, -⟩
    · intro d k held
      obtain ⟨raised, p, hc, date⟩ := h d k (shrinks d k held)
      have same : p = n := by
        rcases window with hw | hw <;> rcases hc with hc | hc <;> rw [hw] at hc <;> cases hc <;> rfl
      exact ⟨marks.1 d raised, n, hu, same ▸ date⟩
    · exact .ofNone none
    · exact .ofNone none

/-- Settles O57: an entry is found only for a district that was watched, and the marks of a night outlast every effect
that leaves it current. -/
theorem stepKeepsOneBurstPerNight : Obligations.StepKeepsOneBurstPerNight := by
  intro s t lawful burst hstep
  obtain ⟨x, u, y, effect, rfl, -, -⟩ := step_effect hstep
  have found := effect.newHeldWatched (by exact burst)
  have held := effect.burstLawful (by exact lawful) (by exact burst)
  refine ⟨held, fun d n none taken => ?_, fun n stays notReset => ?_⟩
  · obtain ⟨unraised, calm⟩ := found d n none taken
    exact ⟨unraised, (held d n taken).1, calm⟩
  · have notReset : s.pending.head? ≠ some .resetLine := fun taken => by
      obtain ⟨rest, hp⟩ := List.head?_eq_some_iff.1 taken
      exact notReset rest hp
    rcases stays with ⟨window, after⟩ | ⟨before, after⟩
    · rcases effect.staysCurrent (n := n) (by exact lawful) window (takeValues_marksKept burst) with
        ⟨marks, -⟩ | ⟨-, halted | taken⟩
      · exact marks
      · rcases after with (ha | ha) | ha <;> cases halted.symm.trans ha
      · exact absurd taken notReset
    · exact effect.settlingMarks (by exact lawful) before after notReset

end Sys2Proof.Machine
end

section
/-!
PROOFS. The law of one settlement per night (section 4.2), and the nights that a start-up, a settlement end and a first
setting leave out (section 4.1).
-/

namespace Sys2Proof.Machine

variable {i : Option Instr} {s t u : State} {d : Nat} {e : DistrictEntry} {r r' : DistrictRuntime}

/-! ### The last settled night of a kept district -/

/-- A district that has settled night n keeps that night or a later one; or its place is empty, with no set pending that
could fill it again. -/
def SettledFrom (d n : Nat) (u : State) : Prop :=
  (∃ r n', tget u.districts d = some r ∧ r.lastSettled = some n' ∧ n ≤ n') ∨
    (tget u.districts d = none ∧ u.config.pending = none)

/-- The districts that hold a runtime are districts of the active set, and those that had settled a night keep it. -/
def SettledNightsKept (s u : State) : Prop :=
  TableFits u ∧ ∀ d r n, tget s.districts d = some r → r.lastSettled = some n → SettledFrom d n u

theorem TableFits.setDistricts (h : TableFits s) (hd : (tget s.config.active.districts d).isSome) :
    TableFits (s.setDistricts (tput s.districts d r)) := by
  intro k hk
  simp only [State.setDistricts_districts, tget_tput] at hk
  split at hk
  · rename_i hkd
    exact hkd ▸ hd
  · exact h k hk

/-- A runtime is written whose last settled night is no earlier than the one it replaces. -/
theorem SettledFrom.setDistricts {k n : Nat} (h : SettledFrom k n u)
    (hr : ∀ r, tget u.districts d = some r → ∀ m, r.lastSettled = some m →
      ∃ m', r'.lastSettled = some m' ∧ m ≤ m') (held : (tget u.districts d).isSome) :
    SettledFrom k n (u.setDistricts (tput u.districts d r')) := by
  unfold SettledFrom
  simp only [State.setDistricts_districts, tget_tput]
  split
  · rename_i hkd
    subst hkd
    rcases h with ⟨r, m, hkr, hm, hle⟩ | ⟨hk, -⟩
    · obtain ⟨m', hm', hle'⟩ := hr r hkr m hm
      exact .inl ⟨r', m', rfl, hm', hle.trans hle'⟩
    · rw [hk] at held
      cases held
  · exact h

theorem SettledNightsKept.refl (h : TableFits s) : SettledNightsKept s s :=
  ⟨h, fun _ r n hr hn => .inl ⟨r, n, hr, hn, le_refl n⟩⟩

/-- A district of the active set takes a runtime whose last settled night is no earlier than the one it is read with. -/
theorem SettledNightsKept.setFound (h : TableFits s) (found : districtOf s d = some (e, r))
    (hr : ∀ m, r.lastSettled = some m → ∃ m', r'.lastSettled = some m' ∧ m ≤ m') :
    SettledNightsKept s (s.setDistricts (tput s.districts d r')) := by
  refine ⟨h.setDistricts (by rw [(districtOf_eq_some_iff.1 found).1]; rfl), fun k r0 n hk hn => ?_⟩
  refine .inl ?_
  simp only [State.setDistricts_districts, tget_tput]
  split
  · rename_i hkd
    subst hkd
    obtain rfl := districtOf_runtime found hk
    obtain ⟨m', hm', hle⟩ := hr n hn
    exact ⟨r', m', rfl, hm', hle⟩
  · exact ⟨r0, n, hk, hn, le_refl n⟩

theorem SettledNightsKept.adoptSet (h : SettledNightsKept s u) {pd : PendingSet}
    (hp : u.config.pending = some pd) (night : Nat) : SettledNightsKept s (adoptSet pd night u) := by
  obtain ⟨fits, settled⟩ := h
  refine ⟨fun k hk => ?_, fun k r n hk hn => ?_⟩
  · simpa [Machine.adoptSet, tget_carryDistricts] using hk
  · unfold SettledFrom
    simp only [Machine.adoptSet, tget_carryDistricts]
    cases he : tget pd.config.districts k with
    | none => exact .inr ⟨rfl, trivial⟩
    | some e =>
      rcases settled k r n hk hn with ⟨r', m, hr', hm, hle⟩ | ⟨-, none⟩
      · obtain ⟨o, ho⟩ := Option.isSome_iff_exists.1 (fits k (by rw [hr']; rfl))
        exact .inl ⟨_, m, rfl, (carryDistrict_lastSettled ho hr' e).trans hm, hle⟩
      · rw [hp] at none
        cases none

theorem recordsKept_settledNights (h : TableFits s) : RecordsKept s (SettledNightsKept s) where
  congr {u v} hu same := by
    unfold SettledNightsKept TableFits SettledFrom
    rw [same.config, same.districts]
    exact hu
  opens _ _ _ := .refl h
  edits _ _ _ _ _ _ := .refl h
  counts _ _ _ _ := .refl h
  discards := .refl h
  commits _ _ _ _ := .refl h
  acks _ _ _ _ found _ _ := .setFound h found fun m hm => ⟨m, hm, le_refl m⟩
  rebases _ _ _ _ _ found _ := .setFound h found fun m hm => ⟨m, hm, le_refl m⟩
  relearns _ _ _ found := .setFound h found fun m hm => ⟨m, hm, le_refl m⟩
  judges run d e r found fresh := by
    have later : ∀ m, r.lastSettled = some m → ∃ m', some run.date = some m' ∧ m ≤ m' := fun m hm => by
      simp only [alreadySettled, hm, decide_eq_false_iff_not] at fresh
      exact ⟨_, rfl, by omega⟩
    exact SettledNightsKept.setFound (r' := settledRuntime run.date _) h found later
  installs u pd night hp hu := hu.adoptSet hp night
  bursts u d r r' cause night found raised hu := by
    refine ⟨hu.1.setDistricts (hu.1 d (by rw [found]; rfl)), fun k r0 n hk hn => ?_⟩
    refine (hu.2 k r0 n hk hn).setDistricts (fun r1 hr1 m hm => ?_) (by rw [found]; rfl)
    obtain rfl := Option.some.inj (found.symm.trans hr1)
    exact ⟨m, (raiseBurst_lastSettled raised).1.trans hm, le_refl m⟩
  empties _ hu := hu
  lapses := ⟨nofun, fun _ _ _ _ _ => .inr ⟨rfl, rfl⟩⟩

/-- A step keeps the nights that the districts have settled. -/
theorem step_settledNights (h : TableFits s) (hstep : step s = .next t) : SettledNightsKept s t := by
  refine step_records (P := SettledNightsKept s) hstep (.refl h) fun v same _ => ?_
  have kept := recordsKept_settledNights (s := v) (by
    unfold TableFits
    rw [same.config, same.districts]
    exact h)
  have eq : SettledNightsKept v = SettledNightsKept s := by
    funext u
    unfold SettledNightsKept
    rw [same.districts]
  rw [← eq]
  exact kept

/-! ### The nights left out (R83; log 39) -/

/-- The night carried after, if any, is the night carried before, and the same nights are left out. -/
def SameNights (s t : State) : Prop :=
  t.calendar.leftOut = s.calendar.leftOut ∧
  ∀ p, carriedPlan t.calendar.cycle = some p → ∃ q, carriedPlan s.calendar.cycle = some q ∧ q.date = p.date

theorem SameNights.of (hl : t.calendar.leftOut = s.calendar.leftOut)
    (hc : carriedPlan t.calendar.cycle = carriedPlan s.calendar.cycle) : SameNights s t :=
  ⟨hl, fun p hp => ⟨p, hc ▸ hp, rfl⟩⟩

theorem SameNights.ofCalendar (h : t.calendar = s.calendar) : SameNights s t := .of (by rw [h]) (by rw [h])

theorem SameNights.trans (h : SameNights s t) (h' : SameNights t u) : SameNights s u := by
  refine ⟨h'.1.trans h.1, fun p hp => ?_⟩
  obtain ⟨q, hq, hqp⟩ := h'.2 p hp
  obtain ⟨o, ho, hoq⟩ := h.2 q hq
  exact ⟨o, ho, hoq.trans hqp⟩

theorem fireDue_sameNights (s : State) : SameNights s (fireDue s) :=
  .of (fireDue_frame s).leftOut (fireDue_carriedPlan s)

theorem replan_sameNights (s : State) : SameNights s (replan s) := by
  refine ⟨by rw [replan_frame]; rfl, fun p hp => ?_⟩
  rcases replan_cycle s with ⟨q, hq, hr⟩ | ⟨-, hr⟩
  · rw [hr] at hp
    exact ⟨q, by rw [hq]; rfl, (plan_eq_some hp).2.symm⟩
  · exact ⟨p, hr ▸ hp, rfl⟩

theorem install_sameNights (night : Nat) (s : State) : SameNights s (install night s) := by
  refine ⟨by rw [(install_frame night s).calendar], fun p hp => ?_⟩
  rcases install_cycle night s with ⟨q, o, hq, ho, lawful⟩ | hc
  · rw [ho] at hp
    exact ⟨q, by rw [hq]; rfl, (lawful p hp).2.symm⟩
  · exact ⟨p, hc ▸ hp, rfl⟩

theorem installNow_sameNights (s : State) : SameNights s (installNow s) :=
  installNow_induction (P := SameNights s) s (.ofCalendar rfl) fun night _ => install_sameNights night s

/-- What a start-up appends, installs and fires leaves the night it has entered. -/
theorem startUp_sameNights (s : State) : SameNights s (fireDue (installNow (appendBackupLow s))) :=
  ((SameNights.ofCalendar (appendBackupLow_calendar s)).trans (installNow_sameNights _)).trans
    (fireDue_sameNights _)

/-- The same nights are left out, and the night carried after, if any, is none of them or the night carried before. -/
def NightsPass (s t : State) : Prop :=
  t.calendar.leftOut = s.calendar.leftOut ∧
  ∀ p, carriedPlan t.calendar.cycle = some p →
    p.date ∉ s.calendar.leftOut ∨ ∃ q, carriedPlan s.calendar.cycle = some q ∧ q.date = p.date

theorem SameNights.pass (h : SameNights s t) : NightsPass s t := ⟨h.1, fun p hp => .inr (h.2 p hp)⟩

theorem NightsPass.then (h : NightsPass s t) (h' : SameNights t u) : NightsPass s u := by
  refine ⟨h'.1.trans h.1, fun p hp => ?_⟩
  obtain ⟨q, hq, hqp⟩ := h'.2 p hp
  rw [← hqp]
  exact h.2 q hq

theorem NightsPass.lawful (h : NightsPass s t) (hs : NightsLawful s) : NightsLawful t := by
  intro p hp
  rw [h.1]
  rcases h.2 p hp with outside | ⟨q, hq, hqp⟩
  · exact outside
  · rw [← hqp]
    exact hs q hq

theorem enterFirst_nights (s : State) : (enterFirst s).calendar.leftOut = s.calendar.leftOut ∧
    ∀ p, carriedPlan (enterFirst s).calendar.cycle = some p → p.date ∉ s.calendar.leftOut := by
  rcases enterFirst_cases s with ⟨closed, o, ho, he⟩ | ⟨closed, p, -, hp, he⟩ <;> rw [he]
  · exact ⟨rfl, fun p hp => (ho p hp).2⟩
  · exact ⟨rfl, fun q hq => Option.some.inj hq ▸ hp⟩

theorem setTime_nightsPass (p : Port) (x : Nat) : NightsPass s (setTime p x s) := by
  unfold setTime
  split
  · have stepped : (stepCalendar s.calendar x).leftOut = s.calendar.leftOut ∧
        (stepCalendar s.calendar x).cycle = s.calendar.cycle := by
      unfold stepCalendar
      dsimp only
      split <;> exact ⟨rfl, rfl⟩
    refine SameNights.pass (.trans (.of ?_ ?_) (fireDue_sameNights _))
    · rw [State.append_calendar]
      exact stepped.1
    · rw [State.append_calendar]
      exact congrArg carriedPlan stepped.2
  · unfold setTimeInvalid
    dsimp only
    split
    · refine SameNights.pass (.of ?_ ?_) <;> rw [State.append_calendar] <;> rfl
    all_goals
      obtain ⟨hl, hp⟩ := enterFirst_nights (s.setCalendar { s.calendar with t := x, valid := true })
      exact (NightsPass.then ⟨hl, fun p hq => .inl (hp p hq)⟩ (installNow_sameNights _)).then
        ((SameNights.ofCalendar (State.append_calendar _ _ _ _ _)).trans (fireDue_sameNights _))

theorem carriedPlan_of_haltDay {c : NightCycle} {p : NightPlan} (h : carriedPlan (haltDay c) = some p) :
    carriedPlan c = some p := by
  cases c with
  | halted | day => cases h
  | opened | grace | settling => exact h

theorem tick_nightsPass (s : State) : NightsPass s (tick s) := by
  unfold tick
  split
  · exact ((SameNights.of rfl rfl).trans (fireDue_sameNights _)).pass
  · have halted : SameNights s (s.setCalendar { s.calendar with
        t := 0, valid := false, horizon := none, cycle := haltDay s.calendar.cycle }) := by
      exact ⟨rfl, fun p hp => ⟨p, carriedPlan_of_haltDay hp, rfl⟩⟩
    unfold rangeEnd
    dsimp only
    split
    · exact (halted.trans (installNow_sameNights _)).pass
    all_goals exact halted.pass

theorem settlementEndEvent_nightsPass (s : State) : NightsPass s (settlementEndEvent s) := by
  unfold settlementEndEvent
  split
  · rename_i p _ _
    rw [endSettlement_eq]
    refine NightsPass.then ?_ (fireDue_sameNights _)
    have left : (settledState p s).calendar.leftOut = s.calendar.leftOut := by simp
    unfold planAfter
    split
    · exact ⟨left, nofun⟩
    · split
      · obtain ⟨hl, hp⟩ := enterFirst_nights ((settledState p s).setCalendar
          { (settledState p s).calendar with entryDue := false })
        exact ⟨hl.trans left, fun q hq => .inl (left ▸ hp q hq)⟩
      · refine ⟨left, fun q hq => .inl ?_⟩
        rw [(plan_eq_some (show (settledState p s).plan _ = some q from hq)).2, ← left]
        exact (firstOutside_spec _ _).2.1
  · exact (SameNights.ofCalendar rfl).pass

theorem enterStartUp_nights (s : State) : (enterStartUp s).calendar.leftOut = s.calendar.leftOut ∧
    ∀ p, carriedPlan (enterStartUp s).calendar.cycle = some p → s.calendar.Enters p.date := by
  rcases enterStartUp_cases s with ⟨-, he⟩ | ⟨-, ⟨closed, o, ho, he⟩ | ⟨closed, p, -, hp, -, -, he⟩⟩ <;> rw [he]
  · exact ⟨rfl, nofun⟩
  · exact ⟨rfl, fun p hp => (ho p hp).2⟩
  · rw [reenterNight_calendar]
    refine ⟨rfl, fun q hq => ?_⟩
    rcases reenteredPhase_cases s.calendar.t p with hc | hc <;>
      simp only [State.setCalendar_calendar, hc] at hq <;> exact Option.some.inj hq ▸ hp

theorem interruptNight_leftOut (c : Calendar) : ∀ k ∈ c.leftOut, k ∈ (interruptNight c).leftOut := by
  unfold interruptNight
  split
  · exact fun _ hk => hk
  · exact fun _ hk => hk
  · exact fun _ hk => (mem_insertIdx _ _ _).2 (.inr hk)
  all_goals exact fun _ hk => hk

/-- After the entry of a start-up no carried night is left out. -/
theorem nightsLawful_of_startUp (h : SameNights (enterStartUp u) t) : NightsLawful t := by
  obtain ⟨hl, hp⟩ := enterStartUp_nights u
  refine (SameNights.pass h).lawful fun p hq => ?_
  rw [hl]
  exact (hp p hq).1

theorem returnPower_nights (b : BackupState) (s : State) :
    SameNights (enterStartUp (startMain (judgeRetention b s))) (returnPower b s) := by
  unfold returnPower
  refine SameNights.trans (.ofCalendar ?_) (startUp_sameNights _)
  split
  · exact appendLapsed_calendar _
  · rfl

/-- An effect passes the nights over that are left out, but for a start-up and a loss of main power. -/
theorem Effect.nights_cases (he : Effect i s u) : NightsPass s u ∨
    (∃ b, s.retention.powered = false ∧ u = returnPower b s) ∨ u = resetMain s ∨ u = losePower s := by
  have same (h : u.calendar = s.calendar) : NightsPass s u := (SameNights.ofCalendar h).pass
  cases he with
  | nothing | opensHold | edits | countsHold | discards | resumes | rebases | relearns | readsEvents
  | setsLatch | backupReturns => exact .inl (same rfl)
  | values p m e x vs => exact .inl (same (takeValues_frame p m e x vs s).calendar)
  | setsTime p x => exact .inl (setTime_nightsPass p x)
  | dropsHold | acks => exact .inl (same (State.append_calendar _ _ _ _ _))
  | commits p hold =>
    exact .inl (((SameNights.ofCalendar rfl).trans (installNow_sameNights _)).trans (fireDue_sameNights _)).pass
  | suspends m x =>
    refine .inl (same ?_)
    unfold markSuspended
    split <;> rfl
  | setsRules rules =>
    exact .inl (((SameNights.of rfl rfl).trans (replan_sameNights _)).trans (fireDue_sameNights _)).pass
  | ticks => exact .inl (tick_nightsPass s)
  | fires => exact .inl (fireDue_sameNights s).pass
  | infills =>
    refine .inl (same ?_)
    rcases infillEvent_cases s with hu | ⟨run, -, hu⟩ <;> rw [hu]
    rfl
  | handsOver =>
    refine .inl (same ?_)
    rcases handOverEvent_cases s with hu | ⟨run, d, rest, -, -, hu | ⟨e, r, -, -, hu⟩⟩ <;> rw [hu]
    · rfl
    · rw [judgeAndRecord_eq]
  | completes =>
    refine .inl (same ?_)
    rcases completeEvent_cases s with hu | ⟨run, -, hu⟩ <;> rw [hu]
    exact State.append_calendar s .nightSettled 0 run.date (settledDetail run)
  | settles => exact .inl (settlementEndEvent_nightsPass s)
  | takesHeld d => exact .inl (same (takeHeld_keeps d s).2.2.2.1)
  | powersUp b off => exact .inr (.inl ⟨b, off, rfl⟩)
  | resets => exact .inr (.inr (.inl rfl))
  | losesPower => exact .inr (.inr (.inr rfl))
  | backupFalls =>
    refine .inl (same ?_)
    unfold Machine.backupFalls
    split
    · rw [appendBackupLow_calendar]
      rfl
    · rfl

/-- The nights left out after a power-up: those before, or none where retention has lapsed. -/
theorem returnPower_leftOut (b : BackupState) (s : State) :
    (returnPower b s).calendar.leftOut = if s.retention.latch then [] else s.calendar.leftOut := by
  rw [(returnPower_nights b s).1, (enterStartUp_nights _).1]
  unfold judgeRetention
  split <;> rfl

theorem resetMain_leftOut (s : State) :
    (resetMain s).calendar.leftOut = (interruptNight s.calendar).leftOut :=
  (startUp_sameNights (enterStartUp (loseMain s))).1.trans (enterStartUp_nights _).1

/-- An effect passes the nights over that are left out, and forgets none of them but where retention lapses. -/
theorem Effect.nights (he : Effect i s u) : (NightsLawful s → NightsLawful u) ∧
    ((s.retention.powered = false → s.retention.latch = false) →
      ∀ k ∈ s.calendar.leftOut, k ∈ u.calendar.leftOut) := by
  rcases he.nights_cases with pass | ⟨b, off, rfl⟩ | rfl | rfl
  · exact ⟨pass.lawful, fun _ _ hk => pass.1 ▸ hk⟩
  · refine ⟨fun _ => nightsLawful_of_startUp (returnPower_nights b s), fun kept k hk => ?_⟩
    rw [returnPower_leftOut, kept off]
    exact hk
  · refine ⟨fun _ => nightsLawful_of_startUp (startUp_sameNights (enterStartUp (loseMain s))), fun _ k hk => ?_⟩
    rw [resetMain_leftOut]
    exact interruptNight_leftOut s.calendar k hk
  · exact ⟨fun _ => nofun, fun _ k hk => interruptNight_leftOut s.calendar k hk⟩

/-- Settles O58: the settled nights by the updates of the records, the nights left out effect by effect, and
the start-ups by the nights they may enter. -/
theorem lastSettledNightNeverGoesBack : Obligations.LastSettledNightNeverGoesBack := by
  refine ⟨fun s t fits hstep => ?_, fun s t hstep => ?_, fun s t on hexec n hn => ?_,
    fun s t b off hexec p n hp broken => ?_⟩
  · obtain ⟨fits', settled⟩ := step_settledNights fits hstep
    refine ⟨fits', fun d r r' n hr hr' hn => ?_⟩
    rcases settled d r n hr hn with ⟨r1, m, hr1, hm, hle⟩ | ⟨none, -⟩
    · obtain rfl := Option.some.inj (hr1.symm.trans hr')
      exact ⟨m, hm, hle⟩
    · rw [none] at hr'
      cases hr'
  · obtain ⟨x, u, y, effect, rfl, -, -⟩ := step_effect hstep
    exact effect.nights
  · obtain rfl := Host.Outcome.next.inj hexec
    obtain ⟨-, hp⟩ := startUp_sameNights (enterStartUp (loseMain s))
    obtain ⟨-, enters⟩ := enterStartUp_nights (loseMain s)
    have lost : (loseMain s).calendar.leftOut = insertIdx s.calendar.leftOut n.date ∧
        (loseMain s).calendar.brokenOff = .settling n.date := by
      unfold loseMain interruptNight
      rw [hn]
      exact ⟨rfl, rfl⟩
    unfold whenPowered
    rw [if_pos on]
    refine ⟨?_, fun p hc => ?_⟩
    · rw [resetMain_leftOut, show (interruptNight s.calendar).leftOut = _ from lost.1]
      exact (mem_insertIdx _ _ _).2 (.inl rfl)
    · obtain ⟨q, hq, hqp⟩ := hp p hc
      rw [← hqp]
      exact (enters q hq).2 _ lost.2
  · obtain rfl := Host.Outcome.next.inj hexec
    rw [off] at hp
    obtain ⟨q, hq, hqp⟩ := (returnPower_nights b s).2 p hp
    rw [← hqp]
    cases latched : s.retention.latch with
    | false =>
      refine ((enterStartUp_nights _).2 q hq).2 n ?_
      unfold judgeRetention
      rw [latched]
      exact broken
    | true =>
      unfold judgeRetention at hq
      rw [latched] at hq
      cases hq

end Sys2Proof.Machine
end

section
/-!
PROOFS. The laws of the link ports, the Suspension List, the hold and the run, and the canonical form of every table
(sections 9.1 to 9.7, 7.1, 2.4 and 4.1).
-/

namespace Sys2Proof.Machine

variable {i : Option Instr} {s t u : State} {P : State → Prop}

/-! ### The ports and the queue of commands -/

/-- A property of the ports and of the queue of commands that each of their updates keeps. -/
structure PortsKept (P : State → Prop) : Prop where
  congr : ∀ {u v}, P u → v.pending = u.pending → v.ports = u.ports → P v
  appends : ∀ u kind subject night detail, P u → P (State.append u kind subject night detail)
  starts : ∀ u, P u → P (u.setPorts (u.ports.map (fun x => PortState.started x.settings)))
  lapses : ∀ u, P u → P (lapse u)

namespace PortsKept

variable (k : PortsKept P)
include k

theorem enterBurst (h : P u) (d night : Nat) : P (enterBurst d night u) := by
  unfold Machine.enterBurst
  split
  · exact h
  · split
    · exact h
    · exact k.appends _ _ _ _ _ (k.congr h rfl rfl)

theorem takeHeld (h : P u) (d : Nat) : P (takeHeld d u) := by
  unfold Machine.takeHeld
  split
  · exact h
  · exact k.enterBurst (u := dropHeld d u) (k.congr h rfl rfl) _ _

theorem fireDue (h : P u) : P (fireDue u) :=
  fireDue_induction u h (fun _ _ _ _ h => k.congr h rfl rfl) (fun _ _ _ _ h => k.congr h rfl rfl)
    fun _ v _ _ h => k.congr (takeAllHeld_induction v h fun d _ h => k.takeHeld h d) rfl rfl

theorem replan (h : P u) : P (replan u) := by
  rw [replan_frame]
  exact k.congr h rfl rfl

theorem install (h : P u) (night : Nat) : P (install night u) := by
  cases hp : u.config.pending with
  | none =>
    rw [install_of_none night hp]
    exact h
  | some pd =>
    rw [install_of_some night hp]
    exact k.replan (k.congr (k.appends u .configInstalled (portCode pd.port) night
      ((u.config.generation + 1).toNat : Int) h) (by rw [State.append_pending]; rfl) rfl)

theorem installNow (h : P u) : P (installNow u) :=
  installNow_induction u h fun night _ => k.install h night

theorem enterFirst (h : P u) : P (enterFirst u) := by
  rcases enterFirst_cases u with ⟨closed, o, -, he⟩ | ⟨closed, p, -, -, he⟩ <;> rw [he] <;>
    exact k.congr h rfl rfl

theorem setTime (h : P u) (p : Port) (t : Nat) : P (setTime p t u) := by
  unfold Machine.setTime
  split
  · exact k.fireDue (k.appends _ _ _ _ _ (k.congr h rfl rfl))
  · unfold setTimeInvalid
    dsimp only
    split
    · exact k.appends _ _ _ _ _ (k.congr h rfl rfl)
    all_goals
      exact k.fireDue (k.appends _ _ _ _ _ (k.installNow (k.enterFirst (by exact k.congr h rfl rfl))))

theorem tick (h : P u) : P (tick u) := by
  unfold Machine.tick
  split
  · exact k.fireDue (k.congr h rfl rfl)
  · unfold rangeEnd
    dsimp only
    split
    · exact k.installNow (k.congr h rfl rfl)
    all_goals exact k.congr h rfl rfl

theorem updateMeters (h : P u) (d : Nat) : P (updateMeters d u) := by
  unfold Machine.updateMeters
  generalize tkeys u.config.active.meters = l
  induction l generalizing u with
  | nil => exact h
  | cons m rest ih =>
    refine ih ?_
    unfold updateMeter
    dsimp only
    split
    · exact k.appends _ _ _ _ _ (k.congr h rfl rfl)
    · exact k.congr h rfl rfl

theorem expireSuspensions (h : P u) (d : Nat) : P (expireSuspensions d u) := by
  unfold Machine.expireSuspensions
  generalize u.suspensions.filter (fun e => expires d e.2) = l
  have listed : P (u.setSuspensions (u.suspensions.filter (fun e => !expires d e.2))) := k.congr h rfl rfl
  generalize u.setSuspensions _ = v at listed ⊢
  induction l generalizing v with
  | nil => exact listed
  | cons x rest ih => exact ih _ (k.appends _ _ _ _ _ listed)

theorem settlementEnd (h : P u) : P (settlementEndEvent u) := by
  unfold settlementEndEvent
  split
  · rename_i p _ _
    rw [endSettlement_eq]
    have updated := k.updateMeters (u := u.setCalendar { u.calendar with cycle := .day none })
      (k.congr h rfl rfl) p.date
    have settled : P (settledState p u) :=
      k.install (k.expireSuspensions (by exact k.congr updated rfl rfl) _) _
    refine k.fireDue ?_
    unfold planAfter
    split
    · exact k.congr settled rfl rfl
    · split
      · exact k.enterFirst (k.congr settled rfl rfl)
      · exact k.congr settled rfl rfl
  · exact h

theorem applyFate (h : P u) (port : Port) (m : Nat) (e : MeterEntry) (x v : Nat) (f : Fate) :
    P (applyFate port m e x v f u) := by
  have heard : P (hear port m u) := by
    unfold hear
    dsimp only
    split
    · exact k.congr h rfl rfl
    · exact k.appends _ _ _ _ _ (k.congr h rfl rfl)
  have reported : P (reportRange m v (hear port m u)) := by
    unfold reportRange
    split
    · exact heard
    · exact k.appends _ _ _ _ _ (k.congr heard rfl rfl)
  unfold Machine.applyFate
  split
  · dsimp only
    split
    · exact reported
    · unfold offerSlot
      split
      · rw [takeOffer_frame]
        exact k.congr heard rfl rfl
      · exact k.congr heard rfl rfl
    · exact k.congr heard rfl rfl
    · exact heard
  · exact h

theorem takeValues (h : P u) (port : Port) (m : Nat) (e : MeterEntry) (x : Nat) (vs : List Nat) :
    P (takeValues port m e x vs u).1 := by
  induction vs generalizing x u with
  | nil => exact h
  | cons v rest ih => exact ih (k.applyFate h port m e x v _) (x + 1)

theorem handOver (h : P u) : P (handOverEvent u) := by
  rcases handOverEvent_cases u with hu | ⟨run, d, rest, -, -, hu | ⟨e, r, -, -, hu⟩⟩ <;> rw [hu]
  · exact h
  · exact k.congr h rfl rfl
  · rw [judgeAndRecord_eq]
    have judged (event : Option (EventKind × Int)) : P (appendJudged d run.date event u) := by
      unfold appendJudged
      split
      · exact h
      · exact k.appends _ _ _ _ _ h
    exact k.congr (judged _) (appendJudged_frame _ _ _ u).1.pending.symm rfl

theorem enterStartUp (h : P u) : P (enterStartUp u) := by
  rcases enterStartUp_cases u with ⟨-, he⟩ | ⟨-, ⟨closed, o, -, he⟩ | ⟨closed, p, -, -, -, -, he⟩⟩ <;> rw [he]
  · exact k.congr h rfl rfl
  · exact k.congr h rfl rfl
  · unfold reenterNight
    rw [enterNight_eq]
    exact k.congr h rfl rfl

theorem startMain (h : P u) : P (startMain u) := k.congr (k.starts u h) rfl rfl

theorem appendBackupLow (h : P u) : P (appendBackupLow u) := by
  unfold Machine.appendBackupLow
  split
  · exact k.appends _ _ _ _ _ h
  · exact h

theorem startUp (h : P u) :
    P (Machine.fireDue (Machine.installNow (Machine.appendBackupLow (Machine.enterStartUp u)))) :=
  k.fireDue (k.installNow (k.appendBackupLow (k.enterStartUp h)))

theorem returnPower (h : P u) (b : BackupState) : P (returnPower b u) := by
  have started : P (Machine.startMain (judgeRetention b u)) := by
    refine k.startMain ?_
    unfold judgeRetention
    split
    · exact k.congr (k.lapses u h) rfl rfl
    · exact k.congr h rfl rfl
  refine k.fireDue (k.installNow (k.appendBackupLow ?_))
  split
  · exact k.appends _ _ _ _ _ (k.enterStartUp started)
  · exact k.enterStartUp started

theorem loseMain (h : P u) : P (loseMain u) :=
  k.startMain (u := u.setCalendar (interruptNight u.calendar)) (k.congr h rfl rfl)

end PortsKept

/-- What holds of the ports and of the queue of commands before an effect and is kept by each of their updates holds
after it. -/
theorem Effect.ports (he : Effect i s u) (h : P s) (k : PortsKept P) : P u := by
  cases he with
  | nothing => exact h
  | values p m e x vs => exact k.takeValues h p m e x vs
  | setsTime p t => exact k.setTime h p t
  | opensHold | edits | countsHold | discards | resumes | rebases | relearns | readsEvents | setsLatch
  | backupReturns => exact k.congr h rfl rfl
  | dropsHold | acks => exact k.appends _ _ _ _ _ (k.congr h rfl rfl)
  | commits p hold => exact k.fireDue (k.installNow (k.congr h rfl rfl))
  | suspends m x =>
    unfold markSuspended
    split <;> exact k.congr h rfl rfl
  | setsRules rules => exact k.fireDue (k.replan (k.congr h rfl rfl))
  | ticks => exact k.tick h
  | fires => exact k.fireDue h
  | infills =>
    rcases infillEvent_cases s with hu | ⟨run, -, hu⟩ <;> rw [hu] <;> exact k.congr h rfl rfl
  | handsOver => exact k.handOver h
  | completes =>
    rcases completeEvent_cases s with hu | ⟨run, -, hu⟩ <;> rw [hu]
    · exact h
    · exact k.congr (k.appends s .nightSettled 0 run.date (settledDetail run) h) rfl rfl
  | settles => exact k.settlementEnd h
  | takesHeld d => exact k.takeHeld h d
  | powersUp b => exact k.returnPower h b
  | resets => exact k.startUp (k.loseMain h)
  | losesPower => exact k.congr (k.loseMain h) rfl rfl
  | backupFalls =>
    unfold Machine.backupFalls
    split
    · exact k.appendBackupLow (k.congr h rfl rfl)
    · exact h

theorem PortsLawful.congr (h : PortsLawful s) (hp : t.ports = s.ports) : PortsLawful t := by
  unfold PortsLawful State.port
  rw [hp]
  exact h

theorem PortState.Lawful.started {x : PortSettings} (h : 1 ≤ x.unitAddr.toNat ∧ x.unitAddr.toNat ≤ 0xFE) :
    (PortState.started x).Lawful :=
  ⟨Nat.zero_le _, nofun, Nat.zero_le _, Nat.zero_le _, Nat.zero_le _, Nat.zero_le _, by simp [PortState.started], h, h⟩

theorem lapsed_unitAddr (p : Port) :
    1 ≤ (PortSettings.lapsed p).unitAddr.toNat ∧ (PortSettings.lapsed p).unitAddr.toNat ≤ 0xFE := by
  cases p <;> decide

theorem portsKept_lawful : PortsKept PortsLawful where
  congr hu _ hp := hu.congr hp
  appends _ _ _ _ _ hu := hu.append _ _ _ _
  starts u hu := by
    refine ⟨fun p => ?_, rfl, rfl⟩
    have settings := (hu.1 p).2.2.2.2.2.2.2.1
    cases p <;> exact .started settings
  lapses u hu := by
    obtain ⟨each, a, b⟩ := hu
    refine ⟨fun p => ?_, a, b⟩
    obtain ⟨queue, frame, noise, discard, bitError, lostCount, lost, -, line⟩ := each p
    have settings := lapsed_unitAddr p
    cases p <;> exact ⟨queue, frame, noise, discard, bitError, lostCount, lost, settings, line⟩

/-! ### The Suspension List -/

theorem SuspensionsLawful.filter (h : SuspensionsLawful s) (p : Nat × Suspension → Bool) :
    SuspensionsLawful (s.setSuspensions (s.suspensions.filter p)) := by
  obtain ⟨few, sorted, known⟩ := h
  refine ⟨(List.length_filter_le _ _).trans few, tableWf_filter sorted p, fun m x hx => ?_⟩
  exact known m x (tget_of_mem sorted (List.mem_of_mem_filter (mem_of_tget hx)))

theorem SuspensionsLawful.tput (h : SuspensionsLawful s) {m : Nat} (x : Suspension)
    (known : (tget s.config.active.meters m).isSome)
    (room : (tget s.suspensions m).isSome ∨ s.suspensions.length < 16) :
    SuspensionsLawful (s.setSuspensions (tput s.suspensions m x)) := by
  obtain ⟨few, sorted, members⟩ := h
  refine ⟨?_, tableWf_tput sorted m x, fun k y hy => ?_⟩
  · rcases room with listed | room
    · exact (length_tput_of_isSome sorted x listed).le.trans few
    · exact (length_tput_le _ _ _).trans room
  · simp only [State.setSuspensions_suspensions, tget_tput] at hy
    split at hy
    · rename_i hk
      exact hk ▸ known
    · exact members k y hy

theorem sameAddress_isSome {old new : Tbl MeterEntry} {m : Nat} (h : sameAddress old new m = true) :
    (tget new m).isSome := by
  unfold sameAddress at h
  split at h
  · rename_i hn
    rw [hn]
    rfl
  · cases h

theorem SuspensionsLawful.adoptSet (h : SuspensionsLawful u) (pd : PendingSet) (night : Nat) :
    SuspensionsLawful (adoptSet pd night u) := by
  obtain ⟨few, sorted, -⟩ := h.filter (fun e => sameAddress u.config.active.meters pd.config.meters e.1)
  refine ⟨few, sorted, fun m x hx => ?_⟩
  have kept := mem_of_tget hx
  exact sameAddress_isSome (List.mem_filter.1 kept).2

theorem intakeKept_suspensions (h : SuspensionsLawful s) : IntakeKept s SuspensionsLawful where
  congr {u v} hu same := by
    unfold SuspensionsLawful
    rw [same.suspensions, same.active]
    exact hu
  hears _ _ hu := hu
  runs _ _ _ hu := hu
  reports _ _ hu := hu
  files _ _ _ _ _ hu := hu
  marks _ _ hu := hu
  nights _ hu := hu
  clears _ hu := hu
  lists _ x known room := h.tput x known room
  resumes _ := h.filter _
  expires _ _ hu := hu.filter _
  infills _ := h
  commits _ _ _ := h
  installs _ pd night _ hu := hu.adoptSet pd night
  lapses := ⟨Nat.zero_le _, rfl, nofun⟩

/-! ### The hold -/

theorem recordsKept_hold (h : HoldLawful s) : RecordsKept s HoldLawful where
  congr {u v} hu same := by
    unfold HoldLawful
    rw [same.config]
    exact hu
  opens p role _ := fun x hx => by
    obtain rfl := Option.some.inj hx
    exact ⟨role, le_refl 300⟩
  edits hold edit c held _ _ := fun x hx => by
    obtain rfl := Option.some.inj hx
    exact ⟨(h hold held).1, le_refl 300⟩
  counts hold n held small := fun x hx => by
    obtain rfl := Option.some.inj hx
    have := (h hold held).2
    exact ⟨(h hold held).1, by show n ≤ 300; omega⟩
  discards := nofun
  commits _ _ _ _ := nofun
  acks _ _ _ _ _ _ _ := h
  rebases _ _ _ _ _ _ _ := h
  relearns _ _ _ _ := h
  judges _ _ _ _ _ _ := h
  installs _ _ _ _ hu := hu
  bursts _ _ _ _ _ _ _ _ hu := hu
  empties _ _ := nofun
  lapses := nofun

/-! ### The run -/

theorem RunLawful.ofNone (h : s.settlement = none) : RunLawful s := by
  intro run hrun
  rw [h] at hrun
  cases hrun

theorem RunLawful.congr (h : RunLawful s) (hs : t.settlement = s.settlement)
    (hc : t.calendar.cycle = s.calendar.cycle) : RunLawful t := by
  unfold RunLawful
  rw [hs, hc]
  exact h

/-- Outside SETTLING there is no run. -/
theorem RunLawful.idle (h : RunLawful s) (hc : ∀ p, s.calendar.cycle ≠ .settling p) : s.settlement = none := by
  refine Option.eq_none_iff_forall_ne_some.2 fun run hrun => ?_
  obtain ⟨⟨p, hp, -⟩, -⟩ := h run hrun
  exact hc p hp

theorem RunLawful.fireDue (h : RunLawful s) : RunLawful (fireDue s) := by
  refine fireDue_induction (P := RunLawful) s h ?_ ?_ ?_
  · intro n u hc _ hu
    exact .ofNone (hu.idle (by rw [hc]; exact nofun))
  · intro n u hc _ hu
    exact .ofNone (hu.idle (by rw [hc]; exact nofun))
  · intro n u hc _ hu run hrun
    obtain rfl := Option.some.inj hrun
    exact ⟨⟨n, rfl, rfl, rfl, rfl⟩, le_refl 0⟩

theorem RunLawful.install (h : RunLawful s) (night : Nat) : RunLawful (install night s) := by
  rcases install_cycle night s with ⟨p, -, hc, -, -⟩ | hc
  · exact .ofNone ((install_frame night s).settlement.trans (h.idle (by rw [hc]; exact nofun)))
  · exact h.congr (install_frame night s).settlement hc

theorem RunLawful.installNow (h : RunLawful s) : RunLawful (installNow s) :=
  installNow_induction (P := RunLawful) s h fun night _ => h.install night

theorem RunLawful.replan (h : RunLawful s) : RunLawful (replan s) := by
  have hs : (Machine.replan s).settlement = s.settlement := by
    rw [replan_frame]
    rfl
  rcases replan_cycle s with ⟨p, hc, -⟩ | ⟨-, hc⟩
  · exact .ofNone (hs.trans (h.idle (by rw [hc]; exact nofun)))
  · exact h.congr hs hc

theorem enterFirst_settlement (s : State) : (enterFirst s).settlement = s.settlement := by
  rcases enterFirst_cases s with ⟨closed, o, -, he⟩ | ⟨closed, p, -, -, he⟩ <;> rw [he] <;> rfl

theorem enterStartUp_settlement (s : State) : (enterStartUp s).settlement = s.settlement := by
  rcases enterStartUp_cases s with ⟨-, he⟩ | ⟨-, ⟨closed, o, -, he⟩ | ⟨closed, p, -, -, -, -, he⟩⟩ <;> rw [he]
  · rfl
  · rfl
  · unfold reenterNight
    rw [enterNight_eq]
    rfl

theorem RunLawful.setTime (h : RunLawful s) (p : Port) (t : Nat) : RunLawful (setTime p t s) := by
  unfold Machine.setTime
  split
  · refine RunLawful.fireDue (h.congr (State.append_settlement _ _ _ _ _) ?_)
    rw [State.append_calendar]
    unfold stepCalendar
    dsimp only
    split <;> rfl
  · unfold setTimeInvalid
    dsimp only
    split
    · refine h.congr (State.append_settlement _ _ _ _ _) ?_
      rw [State.append_calendar]
      rfl
    all_goals
      rename_i hc
      refine RunLawful.fireDue (.ofNone ?_)
      rw [State.append_settlement, (installNow_frame _).settlement, enterFirst_settlement]
      exact h.idle (by rw [hc]; exact nofun)

theorem RunLawful.tick (h : RunLawful s) : RunLawful (tick s) := by
  unfold Machine.tick
  split
  · exact RunLawful.fireDue (h.congr rfl rfl)
  · unfold rangeEnd
    dsimp only
    split
    · rename_i hc
      exact RunLawful.installNow (.ofNone (h.idle (by rw [hc]; exact nofun)))
    all_goals
      rename_i hc
      refine h.congr rfl ?_
      simp only [State.setCalendar_calendar, hc]
      rfl

theorem RunLawful.settlementEnd (h : RunLawful s) : RunLawful (settlementEndEvent s) := by
  unfold settlementEndEvent
  split
  · rename_i p _ hs
    rw [endSettlement_eq]
    have settled : (settledState p s).settlement = none := by
      unfold settledState
      rw [(install_frame _ _).settlement, expireSuspensions_keeps State.settlement _ (fun _ _ => rfl)
        (fun u => u.append_settlement)]
      exact (updateMeters_keeps State.settlement _ (fun _ _ => rfl) (fun u => u.append_settlement) _).trans hs
    refine RunLawful.fireDue (.ofNone ?_)
    unfold planAfter
    split
    · exact settled
    · split
      · rw [enterFirst_settlement]
        exact settled
      · exact settled
  · exact h

theorem countResult_frame (run : Run) (x : NightResult) :
    (countResult run x).date = run.date ∧ (countResult run x).window = run.window ∧
      (countResult run x).length = run.length ∧
      (run.high ≤ run.assessed → (countResult run x).high ≤ (countResult run x).assessed) := by
  cases x with
  | notAssessed => exact ⟨rfl, rfl, rfl, id⟩
  | high => exact ⟨rfl, rfl, rfl, Nat.succ_le_succ⟩
  | learnt | normal => exact ⟨rfl, rfl, rfl, fun h => h.trans (Nat.le_succ _)⟩

theorem RunLawful.startUp (h : s.settlement = none) :
    RunLawful (Machine.fireDue (Machine.installNow (appendBackupLow s))) := by
  refine RunLawful.fireDue (RunLawful.installNow (.ofNone ?_))
  unfold appendBackupLow
  split
  · exact (State.append_settlement _ _ _ _ _).trans h
  · exact h

theorem Effect.runLawful (he : Effect i s u) (h : RunLawful s) : RunLawful u := by
  cases he with
  | nothing | opensHold | edits | countsHold | discards | resumes | rebases | relearns | readsEvents
  | setsLatch | backupReturns => exact h
  | values p m e x vs =>
    have frame := takeValues_frame p m e x vs s
    exact h.congr frame.settlement (by rw [frame.calendar])
  | setsTime p t => exact h.setTime p t
  | dropsHold | acks =>
    exact h.congr (State.append_settlement _ _ _ _ _) (congrArg Calendar.cycle (State.append_calendar _ _ _ _ _))
  | commits p hold => exact RunLawful.fireDue (RunLawful.installNow (h.congr rfl rfl))
  | suspends m x =>
    unfold markSuspended
    split <;> exact h
  | setsRules rules => exact RunLawful.fireDue (RunLawful.replan (h.congr rfl rfl))
  | ticks => exact h.tick
  | fires => exact h.fireDue
  | infills =>
    rcases infillEvent_cases s with hu | ⟨run, hrun, hu⟩ <;> rw [hu]
    · exact h
    · intro run' hrun'
      obtain rfl := Option.some.inj hrun'
      exact h run hrun
  | handsOver =>
    rcases handOverEvent_cases s with hu | ⟨run, d, rest, hrun, -, hu | ⟨e, r, -, -, hu⟩⟩ <;> rw [hu]
    · exact h
    · intro run' hrun'
      obtain rfl := Option.some.inj hrun'
      exact h run hrun
    · rw [judgeAndRecord_eq]
      intro run' hrun'
      obtain rfl := Option.some.inj hrun'
      obtain ⟨⟨p, hp, date, window, length⟩, counts⟩ := h run hrun
      obtain ⟨sameDate, sameWindow, sameLength, countsAfter⟩ := countResult_frame { run with remaining := rest }
        (judgeResult run.date e (settleDistrict s { run with remaining := rest } e).outcome r).result
      exact ⟨⟨p, hp, sameDate.trans date, sameWindow.trans window, sameLength.trans length⟩, countsAfter counts⟩
  | completes =>
    rcases completeEvent_cases s with hu | ⟨run, -, hu⟩ <;> rw [hu]
    · exact h
    · exact .ofNone rfl
  | settles => exact h.settlementEnd
  | takesHeld d =>
    obtain ⟨-, -, -, hc, hs, -, -, -⟩ := takeHeld_keeps d s
    exact h.congr hs (by rw [hc])
  | powersUp b =>
    refine RunLawful.startUp ?_
    have entered : (enterStartUp (startMain (judgeRetention b s))).settlement = none :=
      enterStartUp_settlement _
    split
    · exact (State.append_settlement _ _ _ _ _).trans entered
    · exact entered
  | resets => exact RunLawful.startUp (enterStartUp_settlement _)
  | losesPower => exact .ofNone rfl
  | backupFalls =>
    unfold Machine.backupFalls
    split
    · refine h.congr ?_ (by rw [appendBackupLow_calendar]; rfl)
      unfold appendBackupLow
      split
      · exact State.append_settlement _ _ _ _ _
      · rfl
    · exact h

end Sys2Proof.Machine
end

section
/-!
PROOFS. The canonical form of every table and index set (log 26), and the laws of the blocks together; the state after
reset.
-/

namespace Sys2Proof.Machine

variable {i : Option Instr} {s t u : State} {c c' : ConfigSet}

/-! ### The configuration, the districts and the rings -/

theorem ConfigSet.Canonical.setMeters (h : c.Canonical) {m : Tbl MeterEntry} (hm : tableWf m = true) :
    ConfigSet.Canonical { c with meters := m } := ⟨hm, h.2⟩

theorem ConfigSet.Canonical.setDistricts (h : c.Canonical) {d : Tbl DistrictEntry} (hd : tableWf d = true) :
    ConfigSet.Canonical { c with districts := d } := ⟨h.1, hd⟩

theorem StagingEdit.canonical {edit : ConfigSet → Except Status ConfigSet} (known : StagingEdit edit)
    (made : edit c = .ok c') (h : c.Canonical) : c'.Canonical := by
  cases known with
  | meter payload =>
    unfold editMeterSet at made
    split at made
    · split at made
      · cases made
      · split at made <;> cases made
        exact h.setMeters (tableWf_tput h.1 _ _)
    · cases made
  | meterDrop payload =>
    unfold dropMeterSet at made
    split at made
    · split at made
      · cases made
      · split at made <;> cases made
        exact h.setMeters (tableWf_tdel h.1 _)
    · cases made
  | dma payload =>
    unfold editDmaSet at made
    split at made
    · cases made
    · split at made <;> cases made
      exact h.setDistricts (tableWf_tput h.2 _ _)
  | dmaDrop payload =>
    unfold dropDmaSet at made
    split at made
    · split at made
      · cases made
      · split at made <;> cases made
        exact h.setDistricts (tableWf_tdel h.2 _)
    · cases made
  | night payload =>
    unfold editNightSet at made
    split at made
    · split at made <;> cases made
      exact h
    · cases made

/-- The configuration sets, the District State Table and the History Store in canonical form. -/
structure RecordsCanonical (s : State) : Prop where
  active : s.config.active.Canonical
  waiting : ∀ pd ∈ s.config.pending, pd.config.Canonical
  staging : ∀ h ∈ s.config.hold, h.staging.Canonical
  districts : tableWf s.districts = true
  history : tableWf s.history = true

theorem RecordsCanonical.setHold (h : RecordsCanonical s) {x : Option Hold}
    (hx : ∀ y ∈ x, y.staging.Canonical) : RecordsCanonical (s.setHold x) :=
  ⟨h.active, h.waiting, hx, h.districts, h.history⟩

theorem RecordsCanonical.setDistricts (h : RecordsCanonical s) (d : Nat) (r : DistrictRuntime) :
    RecordsCanonical (s.setDistricts (tput s.districts d r)) :=
  ⟨h.active, h.waiting, h.staging, tableWf_tput h.districts d r, h.history⟩

theorem RecordsCanonical.stagingSource (h : RecordsCanonical s) : (stagingSource s.config).Canonical := by
  unfold Machine.stagingSource
  split
  · rename_i pd hp
    exact h.waiting pd hp
  · exact h.active

theorem lapsed_canonical : ConfigSet.lapsed.Canonical := ⟨rfl, rfl⟩

theorem recordsKept_canonical (h : RecordsCanonical s) : RecordsKept s RecordsCanonical where
  congr {u v} hu same := by
    obtain ⟨active, waiting, staging, districts, history⟩ := hu
    rw [← same.config] at active waiting staging
    rw [← same.districts] at districts
    rw [← same.history] at history
    exact ⟨active, waiting, staging, districts, history⟩
  opens p _ _ := h.setHold fun y hy => by
    obtain rfl := Option.some.inj hy
    exact h.stagingSource
  edits hold edit c held known made := h.setHold fun y hy => by
    obtain rfl := Option.some.inj hy
    exact known.canonical made (h.staging hold held)
  counts hold n held _ := h.setHold fun y hy => by
    obtain rfl := Option.some.inj hy
    exact h.staging hold held
  discards := h.setHold nofun
  commits p hold held _ := ⟨h.active, fun pd hpd => by
    obtain rfl := Option.some.inj hpd
    exact h.staging hold held, nofun, h.districts, h.history⟩
  acks _ _ _ _ _ _ _ := h.setDistricts _ _
  rebases _ _ _ _ _ _ _ := h.setDistricts _ _
  relearns _ _ _ _ := h.setDistricts _ _
  judges _ _ _ _ _ _ :=
    ⟨h.active, h.waiting, h.staging, tableWf_tput h.districts _ _, tableWf_tput h.history _ _⟩
  installs u pd _ hp hu :=
    have new := hu.waiting pd hp
    ⟨new, nofun, hu.staging, tableWf_map new.2 _, tableWf_filter hu.history _⟩
  bursts _ _ _ _ _ _ _ _ hu := hu.setDistricts _ _
  empties _ hu := ⟨hu.active, hu.waiting, nofun, hu.districts, rfl⟩
  lapses := ⟨lapsed_canonical, nofun, nofun, rfl, rfl⟩

/-! ### Reading Intake and the Suspension List -/

/-- Reading Intake, the Suspension List and the pending set in canonical form. -/
structure IntakeCanonical (s : State) : Prop where
  runtime : tableWf s.intake.runtime = true
  store : storeWf s.intake.store = true
  heard : idxWf s.intake.heard = true
  suspended : idxWf s.intake.suspended = true
  rangeReported : idxWf s.intake.rangeReported = true
  suspensions : tableWf s.suspensions = true
  waiting : ∀ pd ∈ s.config.pending, pd.config.Canonical

theorem fileValue_ne_empty (slot : Slot) (v : Nat) : (fileValue slot v).1 ≠ .empty := by
  cases slot with
  | empty | conflict | estimated => exact nofun
  | filled w =>
    unfold fileValue
    dsimp only
    split <;> exact nofun

theorem infilledSlot_ne_empty {store : Tbl Slot} {n m k : Nat}
    (h : infilledSlot store n m k ≠ slotAt store m k) : infilledSlot store n m k ≠ .empty := by
  rcases infilledSlot_cases store n m k with ⟨a, b, -, -, -, -, -, he⟩ | he
  · rw [he]
    exact nofun
  · exact absurd he h

theorem intakeKept_canonical (h : IntakeCanonical s) (staging : ∀ x ∈ s.config.hold, x.staging.Canonical) :
    IntakeKept s IntakeCanonical where
  congr {u v} hu same := by
    obtain ⟨runtime, store, heard, suspended, rangeReported, suspensions, waiting⟩ := hu
    rw [← same.intake] at runtime store heard suspended rangeReported
    rw [← same.suspensions] at suspensions
    rw [← same.waiting] at waiting
    exact ⟨runtime, store, heard, suspended, rangeReported, suspensions, waiting⟩
  hears _ m hu := { hu with heard := idxWf_insertIdx hu.heard m }
  runs _ m r hu := { hu with runtime := tableWf_tput hu.runtime m r }
  reports _ m hu := { hu with rangeReported := idxWf_insertIdx hu.rangeReported m }
  files _ m k v _ hu := { hu with store := storeWf_putSlot hu.store m k (fileValue_ne_empty _ v) }
  marks _ m hu := { hu with suspended := idxWf_insertIdx hu.suspended m }
  nights _ hu := ⟨hu.runtime, rfl, rfl, tkeys_sorted hu.suspensions, rfl, hu.suspensions, hu.waiting⟩
  clears _ hu := ⟨hu.runtime, rfl, rfl, rfl, rfl, hu.suspensions, hu.waiting⟩
  lists m x _ _ := { h with suspensions := tableWf_tput h.suspensions m x }
  resumes m := { h with suspensions := tableWf_tdel h.suspensions m }
  expires _ _ hu := { hu with suspensions := tableWf_filter hu.suspensions _ }
  infills _ := { h with
    store := infillStore_induction (P := fun store => storeWf store = true) _ _ h.store
      fun _ m k differs hu => storeWf_putSlot hu m k (infilledSlot_ne_empty differs) }
  commits p hold held := { h with
    waiting := fun pd hpd => by
      obtain rfl := Option.some.inj hpd
      exact staging hold held }
  installs _ pd _ hp hu :=
    ⟨tableWf_map (hu.waiting pd hp).1 _, hu.store, hu.heard, hu.suspended, hu.rangeReported,
      tableWf_filter hu.suspensions _, nofun⟩
  lapses := ⟨rfl, rfl, rfl, rfl, rfl, rfl, nofun⟩

/-! ### The Burst Watch and the nights left out -/

/-- The Burst Watch in canonical form. -/
structure BurstCanonical (s : State) : Prop where
  marks : tableWf s.burst.marks = true
  raised : idxWf s.burst.raised = true
  held : tableWf s.burst.held = true

theorem BurstCanonical.congr (h : BurstCanonical s) (hb : t.burst = s.burst) : BurstCanonical t := by
  obtain ⟨marks, raised, held⟩ := h
  rw [← hb] at marks raised held
  exact ⟨marks, raised, held⟩

theorem burstKept_canonical : BurstKept BurstCanonical where
  congr hu hb := hu.congr hb
  nights _ hu := ⟨rfl, rfl, hu.held⟩
  drops _ d hu := ⟨hu.marks, hu.raised, tableWf_tdel hu.held d⟩
  empties _ _ := ⟨rfl, rfl, rfl⟩

theorem BurstCanonical.examine (h : BurstCanonical u) (p : NightPlan) (k d : Nat) (e : DistrictEntry) :
    BurstCanonical (examine p k u (d, e)) := by
  rcases examine_cases p k u d e with he | ⟨b, marks, -, -, he | he⟩ <;> rw [he]
  · exact h
  · exact ⟨tableWf_tput h.marks _ _, h.raised, h.held⟩
  · exact ⟨tableWf_tput h.marks _ _, idxWf_insertIdx h.raised d, tableWf_tput h.held _ _⟩

theorem Effect.burstCanonical (he : Effect i s u) (h : BurstCanonical s) : BurstCanonical u :=
  he.burst h burstKept_canonical fun p m e x vs hu => hu ▸
    takeValues_induction h (fun _ _ hu hb _ => hu.congr hb)
      (fun p k _ d e _ _ hu => hu.examine p k d e) p m e x vs

theorem interruptNight_canonical (c : Calendar) (h : idxWf c.leftOut = true) :
    idxWf (interruptNight c).leftOut = true := by
  unfold interruptNight
  split
  · exact h
  · exact h
  · exact idxWf_insertIdx h _
  all_goals exact h

theorem Effect.leftOutCanonical (he : Effect i s u) (h : idxWf s.calendar.leftOut = true) :
    idxWf u.calendar.leftOut = true := by
  rcases he.nights_cases with pass | ⟨b, -, rfl⟩ | rfl | rfl
  · rw [pass.1]
    exact h
  · rw [returnPower_leftOut]
    split
    · rfl
    · exact h
  · rw [resetMain_leftOut]
    exact interruptNight_canonical _ h
  · exact interruptNight_canonical _ h

/-! ### The whole state -/

theorem canonical_iff : Canonical s ↔
    RecordsCanonical s ∧ IntakeCanonical s ∧ BurstCanonical s ∧ idxWf s.calendar.leftOut = true := by
  constructor
  · rintro ⟨active, waiting, staging, runtime, store, heard, suspended, reported, left, districts, suspensions,
      history, marks, raised, held⟩
    exact ⟨⟨active, waiting, staging, districts, history⟩,
      ⟨runtime, store, heard, suspended, reported, suspensions, waiting⟩, ⟨marks, raised, held⟩, left⟩
  · rintro ⟨records, intake, burst, left⟩
    exact ⟨records.active, records.waiting, records.staging, intake.runtime, intake.store, intake.heard,
      intake.suspended, intake.rangeReported, left, records.districts, intake.suspensions, records.history,
      burst.marks, burst.raised, burst.held⟩

theorem Effect.canonical (he : Effect i s u) (h : Canonical s) : Canonical u := by
  obtain ⟨records, intake, burst, left⟩ := canonical_iff.1 h
  exact canonical_iff.2 ⟨he.records records (recordsKept_canonical records),
    he.intake intake (intakeKept_canonical intake records.staging), he.burstCanonical burst,
    he.leftOutCanonical left⟩

/-- Settles O59: law by law, each kept by the one effect of a step. -/
theorem stepKeepsBlockLaws : Obligations.StepKeepsBlockLaws := by
  intro s t hstep
  obtain ⟨x, u, y, effect, rfl, before, after⟩ := step_effect hstep
  refine ⟨fun h => after (effect.ports (before h) portsKept_lawful), fun h => ?_, fun h => ?_, fun h => ?_,
    fun h => ?_⟩
  · exact (effect.intake (P := SuspensionsLawful) (by exact h) (intakeKept_suspensions (by exact h)) :)
  · exact (effect.records (P := HoldLawful) (by exact h) (recordsKept_hold (by exact h)) :)
  · exact (effect.runLawful (by exact h) :)
  · exact (effect.canonical (by exact h) :)

/-! ### The state after reset -/

/-- Settles O60. -/
theorem resetIsLawful : Obligations.ResetIsLawful := by
  refine ⟨⟨by decide, fun i hi => ?_, fun p => by cases p <;> decide⟩, ⟨by decide, trivial, fun _ => rfl, nofun⟩,
    fun d => RingLawful.nil _, ⟨nofun, nofun, nofun, nofun⟩, ⟨lapsed_lawful, nofun⟩,
    ⟨StoreSmall.nil, nofun, nofun, nofun, nofun⟩, nofun, nofun, nofun, ⟨fun p => ?_, rfl, rfl⟩,
    ⟨by decide, rfl, nofun⟩, nofun, nofun, ?_, rfl, rfl, rfl, rfl, rfl, rfl, rfl, rfl, rfl, rfl,
    fun p => by cases p <;> rfl⟩
  · have first : i = 0 := Nat.lt_one_iff.1 hi
    subst first
    rfl
  · have settings := lapsed_unitAddr p
    cases p <;> exact .started settings
  · exact canonical_iff.2 ⟨⟨lapsed_canonical, nofun, nofun, rfl, rfl⟩,
      ⟨rfl, rfl, rfl, rfl, rfl, rfl, nofun⟩, ⟨rfl, rfl, rfl⟩, rfl⟩

end Sys2Proof.Machine
end

section
/-!
PROOFS. The rows of the dispatch: every command completes (log 1, log 2), the Request Service's checks (sections 9.2 and
10.1), and the one rule by which a taken request is answered by its owner.
-/

namespace Sys2Proof.Machine

variable {i : Instr} {s t u : State} {p : Port} {k : Nat} {f : Frame} {rest : List Frame} {payload out : List Octet}
  {x : Status}

/-! ### The request rows -/

/-- The frames that a request row may take. -/
def minesOf (i : Instr) : Frame → Bool :=
  match i with
  | .paramSetDaylightSaving _ => isDaylightSaving
  | .paramSetPortSettings _ => isPortSettings
  | i => fun f => (requestOf i).any (fun x => ofKind x.2 f)

/-- The block that serves a request row. -/
def ownerOf (i : Instr) : Owner :=
  match i with
  | .readings _ => ownReadings
  | .timeSet _ => ownTimeSet
  | .timeGet _ => ownTimeGet
  | .editOpen _ => ownEditOpen
  | .editMeter _ => ownEditMeter
  | .editMeterDrop _ => ownEditMeterDrop
  | .editDma _ => ownEditDma
  | .editDmaDrop _ => ownEditDmaDrop
  | .editNight _ => ownEditNight
  | .editCommit _ => ownEditCommit
  | .editDiscard _ => ownEditDiscard
  | .configRead _ => ownConfigRead
  | .suspend _ => ownSuspend
  | .resume _ => ownResume
  | .suspendList _ => ownSuspendList
  | .leakAck _ => ownLeakAck
  | .rebase _ => ownRebase
  | .relearn _ => ownRelearn
  | .dmaStatus _ => ownDmaStatus
  | .meterStatus _ => ownMeterStatus
  | .nightRead _ => ownNightRead
  | .eventRead _ => ownEventRead
  | .flagClear _ => ownFlagClear
  | .flagMask _ => ownFlagMask
  | .paramSetDaylightSaving _ => ownDaylightSaving
  | .paramSetPortSettings _ => ownPortSettings
  | .partStatus _ => ownPartStatus
  | _ => ownNothing

/-- A request row is one serving of the oldest waiting frame of its port. -/
theorem exec_request (h : requestOf i = some (p, k)) (s : State) :
    exec i s = .next (serve (minesOf i) (ownerOf i) p s) := by
  cases i <;> cases h <;> rfl

/-- A request row takes the frames of its kind, and of its item where it is a row of PARAM_SET. -/
theorem minesOf_iff (h : requestOf i = some (p, k)) : minesOf i f = true ↔ f.kind.toNat = k ∧ ItemFits i f := by
  cases i <;> cases h <;> simp [minesOf, requestOf, ofKind, ItemFits, isDaylightSaving, isPortSettings]

theorem requestOf_kind (h : requestOf i = some (p, k)) : 1 ≤ k ∧ k ≤ 0x1A := by
  cases i <;> cases h <;> exact ⟨by decide, by decide⟩

theorem knownKind_iff {o : Octet} : knownKind o = true ↔ 1 ≤ o.toNat ∧ o.toNat ≤ 0x1A := by
  simp [knownKind]

/-- The roles are those of section 10.2's table. -/
theorem inRole_iff {o : Octet} (known : knownKind o = true) : inRole o p = true ↔ p ∈ roleTable o.toNat := by
  obtain ⟨lower, upper⟩ := knownKind_iff.1 known
  unfold inRole
  generalize o.toNat = n at lower upper ⊢
  interval_cases n <;> cases p <;> decide

/-- A request in its port's role is answered as its owner answers its payload. -/
theorem exec_of_answer (h : requestOf i = some (p, k)) (ready : ReadyToTake s p f rest) (kind : f.kind.toNat = k)
    (item : ItemFits i f) (role : p ∈ roleTable k)
    (answer : ownerOf i p f.payload (s.takeFrame p) = (t, ⟨x, out⟩)) :
    exec i s = .next (replied s p f t x out) := by
  have known : knownKind f.kind = true := knownKind_iff.2 (kind ▸ requestOf_kind h)
  rw [exec_request h, serve_ready _ _ ready ((minesOf_iff h).2 ⟨kind, item⟩) known
    ((inRole_iff known).2 (kind ▸ role)), answer]

/-- The same for a frame of a given kind and payload. -/
theorem exec_of_taking {kind : Octet} (taking : Taking s p f kind payload) (h : requestOf i = some (p, kind.toNat))
    (item : ItemFits i f) (role : p ∈ roleTable kind.toNat)
    (answer : ownerOf i p payload (s.takeFrame p) = (t, ⟨x, out⟩)) :
    exec i s = .next (replied s p f t x out) := by
  obtain ⟨⟨rest, ready⟩, rfl, rfl⟩ := taking
  exact exec_of_answer h ready rfl item role answer

theorem waitingFrame_eq_some : waitingFrame s p = some f ↔
    s.retention.powered = true ∧ (s.port p).transmitter = none ∧ (s.port p).queue.head? = some f := by
  unfold waitingFrame
  cases s.retention.powered <;> cases (s.port p).transmitter <;> simp

theorem nothingToTake_iff {mine : Frame → Prop} : NothingToTake s p mine ↔
    ∀ f, waitingFrame s p = some f → ¬ mine f := by
  simp only [waitingFrame_eq_some, NothingToTake, Option.mem_def]
  constructor
  · rintro (off | sending | others) f ⟨on, idle, head⟩ hf
    · rw [off] at on
      cases on
    · exact sending idle
    · exact others f head hf
  · intro h
    by_cases on : s.retention.powered = true
    · by_cases idle : (s.port p).transmitter = none
      · exact .inr (.inr fun f head => h f ⟨on, idle, head⟩)
      · exact .inr (.inl idle)
    · exact .inl (by simpa using on)

/-- A request row whose frame does not wait changes nothing. -/
theorem exec_request_not_due (h : requestOf i = some (p, k))
    (none : NothingToTake s p (fun f => f.kind.toNat = k ∧ ItemFits i f)) : exec i s = .next s := by
  rw [exec_request h, serve_not_due]
  intro f hf
  rw [Bool.eq_false_iff, ne_eq, minesOf_iff h]
  exact nothingToTake_iff.1 none f hf

/-! ### Every command completes -/

/-- Settles O1. -/
theorem stepTakesFrontCommand : Obligations.StepTakesFrontCommand := by
  intro c rest s h
  unfold step
  rw [h]

theorem portsKept_pending (s : State) : PortsKept (fun u => u.pending = s.pending) where
  congr hu hp _ := hp.trans hu
  appends u _ _ _ _ hu := (State.append_pending u _ _ _ _).trans hu
  starts _ hu := hu
  lapses _ hu := hu

/-- Every command answers a next state, the queue of commands as it was. -/
theorem exec_completes (i : Instr) (s : State) : ∃ t, exec i s = .next t ∧ t.pending = s.pending := by
  obtain ⟨t, hexec, x, u, y, effect, rfl, -, -⟩ := exec_effect i s
  exact ⟨_, hexec, effect.ports (P := fun u => u.pending = s.pending) rfl (portsKept_pending s)⟩

theorem whenPowered_off {f : State → State} (off : s.retention.powered = false) : whenPowered f s = s := by
  simp [whenPowered, off]

theorem whenPowered_not_due {f : State → State} {due : Prop} (h : s.retention.powered = false ∨ due)
    (none : due → f s = s) : whenPowered f s = s := by
  rcases h with off | hd
  · exact whenPowered_off off
  · unfold whenPowered
    split
    · exact none hd
    · rfl

theorem adoptDue_not_due (h : (s.port p).change ≠ .ready ∨ (s.port p).transmitter ≠ none) :
    s.adoptDue p = s := by
  have same : (s.port p).adoptDue = s.port p := by
    unfold PortState.adoptDue
    rw [if_neg]
    rintro ⟨ready, idle⟩
    rcases h with h | h
    · exact h ready
    · exact h idle
  unfold State.adoptDue
  rw [same]
  cases p <;> rfl

theorem reachBoundary_ahead {instant : Nat} (h : s.calendar.t + 1 < instant) : reachBoundary instant s = s := by
  unfold reachBoundary
  rw [if_neg (by omega), if_neg (by omega)]

/-- A command whose event does not happen leaves the whole state as it is (log 1). -/
theorem exec_not_due (i : Instr) (s : State) (h : NotDue i s) : exec i s = .next s := by
  cases i with
  | calendarTick => exact absurd h not_false
  | calendarRangeEnd => exact congrArg Host.Outcome.next (if_neg (Nat.not_le.2 h))
  | powerUp b => exact congrArg Host.Outcome.next (if_pos h)
  | backupLatchSet => exact congrArg Host.Outcome.next (if_pos h)
  | portReset | resetLine | mainPowerLoss | characterReceived =>
    exact congrArg Host.Outcome.next (whenPowered_off h)
  | unknownKind p =>
    refine congrArg Host.Outcome.next (serve_not_due _ _ fun f hf => ?_)
    have := nothingToTake_iff.1 h f hf
    simp only [Bool.not_eq_false', knownKind_iff]
    omega
  | frameEnd p =>
    refine congrArg Host.Outcome.next (whenPowered_not_due h ?_)
    rintro ⟨rfl, sending⟩
    obtain ⟨tx, htx⟩ := Option.ne_none_iff_exists'.1 sending
    simp only [State.endFrame, htx]
  | responseSent p =>
    refine congrArg Host.Outcome.next (whenPowered_not_due h fun idle => ?_)
    simp only [finishResponse, idle]
  | echoMismatch =>
    refine congrArg Host.Outcome.next (whenPowered_not_due h fun idle => ?_)
    simp only [mismatch, idle]
  | portSettingsApplied p =>
    exact congrArg Host.Outcome.next (whenPowered_not_due h adoptDue_not_due)
  | windowStart =>
    refine congrArg Host.Outcome.next (whenPowered_not_due h fun ahead => ?_)
    unfold reachWindowStart
    split
    · exact reachBoundary_ahead (ahead _ ‹_›)
    all_goals rfl
  | windowEnd =>
    refine congrArg Host.Outcome.next (whenPowered_not_due h fun ahead => ?_)
    unfold reachWindowEnd
    split
    · exact reachBoundary_ahead (ahead _ ‹_›)
    all_goals rfl
  | graceEnd =>
    refine congrArg Host.Outcome.next (whenPowered_not_due h fun ahead => ?_)
    unfold reachGraceEnd
    split
    · exact reachBoundary_ahead (ahead _ ‹_›)
    all_goals rfl
  | infillPass =>
    refine congrArg Host.Outcome.next (whenPowered_not_due h fun done => ?_)
    unfold infillEvent
    split
    · rfl
    · rw [if_pos (done _ ‹_›)]
  | handOver =>
    refine congrArg Host.Outcome.next (whenPowered_not_due h fun done => ?_)
    unfold handOverEvent
    split
    · rfl
    · rename_i run hrun
      split
      · rename_i d rest infilled remaining
        rw [done run hrun infilled] at remaining
        cases remaining
      · rfl
  | settlementComplete =>
    refine congrArg Host.Outcome.next (whenPowered_not_due h fun left => ?_)
    unfold completeEvent
    split
    · rfl
    · rename_i run hrun
      split
      · rename_i infilled remaining
        exact absurd remaining (left run hrun infilled)
      · rfl
  | settlementEnd =>
    refine congrArg Host.Outcome.next (whenPowered_not_due h fun other => ?_)
    unfold settlementEndEvent
    split
    · rename_i n hc hs
      rcases other with other | running
      · exact absurd hc (other n)
      · exact absurd hs running
    · rfl
  | burstEntry d =>
    refine congrArg Host.Outcome.next (whenPowered_not_due h fun none => ?_)
    simp only [takeHeld, none]
  | holdTimerExpiry =>
    refine congrArg Host.Outcome.next (whenPowered_not_due h fun runs => ?_)
    unfold expireDue
    split
    · rfl
    · rw [if_neg (runs _ ‹_›)]
  | backupGoodToLow =>
    refine congrArg Host.Outcome.next (whenPowered_not_due h fun low => ?_)
    unfold backupFalls
    rw [low]
  | backupLowToGood =>
    refine congrArg Host.Outcome.next (whenPowered_not_due h fun good => ?_)
    unfold backupReturns
    rw [← good]
    rfl
  | _ => exact exec_request_not_due rfl (h _ _ rfl)

/-- Settles O2. -/
theorem everyCommandCompletes : Obligations.EveryCommandCompletes :=
  fun i s => ⟨exec_completes i s, exec_not_due i s⟩

/-! ### The Request Service (R165) -/

/-- A broadcast is taken, and acts only where it is a TIME_SET on port B. -/
theorem serve_broadcast {mine : Frame → Bool} {owner : Owner} (waiting : waitingFrame s p = some f)
    (hm : mine f = true) (addr : f.addr = 0xFF) : serve mine owner p s =
      if broadcastActs f.kind p then (owner p f.payload (s.takeFrame p)).1 else s.takeFrame p := by
  simp only [serve, waiting, hm, if_true, serveFrame, Config.broadcast, addr]

/-- Settles O3. -/
theorem requestServiceChecks : Obligations.RequestServiceChecks := by
  refine ⟨fun s p f rest ready => ⟨fun unknown => ?_, fun i k hi kind item role => ?_⟩,
    fun s p f rest on idle queue addr => ?_⟩
  · have unknown : knownKind f.kind = false := by
      rw [Bool.eq_false_iff, ne_eq, knownKind_iff]
      omega
    refine congrArg Host.Outcome.next ((serve_refused _ _ ready ?_ (.inl unknown)).trans ?_)
    · simp [unknown]
    · simp [unknown]
  · have known : knownKind f.kind = true := knownKind_iff.2 (kind ▸ requestOf_kind hi)
    have outside : inRole f.kind p = false := by
      rw [Bool.eq_false_iff, ne_eq, inRole_iff known, kind]
      exact role
    rw [exec_request hi, serve_refused _ _ ready ((minesOf_iff hi).2 ⟨kind, item⟩) (.inr outside), known]
    rfl
  have waiting : waitingFrame s p = some f := waitingFrame_eq_some.2 ⟨on, idle, by rw [queue]; rfl⟩
  refine ⟨fun unknown => ?_, fun i k hi kind item other => ?_, fun y1 y0 mo d h mi se hp kind hpayload => ?_⟩
  · have acts : broadcastActs f.kind p = false := by simp [broadcastActs]; omega
    refine congrArg Host.Outcome.next ((serve_broadcast waiting ?_ addr).trans (by rw [acts]; rfl))
    rw [Bool.not_eq_true', Bool.eq_false_iff, ne_eq, knownKind_iff]
    omega
  · have acts : broadcastActs f.kind p = false := by
      rw [Bool.eq_false_iff, ne_eq, broadcastActs, decide_eq_true_eq, kind]
      exact fun h => other ⟨h.2, h.1⟩
    rw [exec_request hi, serve_broadcast waiting ((minesOf_iff hi).2 ⟨kind, item⟩) addr, acts]
    rfl
  · subst hp
    have acts : broadcastActs f.kind .b = true := by simp [broadcastActs, kind]
    rw [exec_request rfl, serve_broadcast waiting ((minesOf_iff (i := .timeSet .b) rfl).2 ⟨kind, trivial⟩) addr, acts,
      hpayload]
    simp only [if_true, ownerOf, ownTimeSet]
    split <;> rfl

end Sys2Proof.Machine
end

section
/-!
PROOFS. The calendar's tick and the boundaries of a night (sections 3.1 and 3.4): a second that reaches no boundary, the
end of the range, and the window start, window end and grace end that a tick or its own command brings.
-/

namespace Sys2Proof.Machine

variable {s t : State} {n : NightPlan}

/-! ### A second of the calendar (R53, R54) -/

/-- The state one second later, before any boundary fires. -/
def State.ticked (s : State) : State := s.setCalendar { s.calendar with t := s.calendar.t + 1 }

theorem tick_of_lt (h : s.calendar.t < 3155759999) : tick s = fireDue s.ticked := if_pos h

theorem tick_of_last (h : s.calendar.t = 3155759999) : tick s = rangeEnd s :=
  if_neg (by simp only [h, Config.lastSecond]; omega)

theorem exec_calendarRangeEnd_of_last (h : s.calendar.t = 3155759999) :
    exec .calendarRangeEnd s = exec .calendarTick s :=
  congrArg Host.Outcome.next (if_pos (Nat.le_of_eq h.symm))

/-- Nothing fires where the boundary ahead lies in the future. -/
theorem fireDue_ahead (h : NothingDue s.calendar.cycle s.calendar.t) : fireDue s = s := by
  have fires := fireDue_firesTo s
  unfold FiresTo at fires
  unfold NothingDue at h
  cases hc : s.calendar.cycle with
  | halted => simpa only [hc] using fires
  | settling p => simpa only [hc] using fires
  | day planned =>
    cases planned with
    | none => simpa only [hc] using fires
    | some p => simp only [hc] at fires h; exact fires.1 h.2
  | opened p => simp only [hc] at fires h; exact fires.1 h.2
  | grace p => simp only [hc] at fires h; exact fires.1 h.2

/-- Settles O18: a tick fires what is due, which is nothing, and the end of the range goes by the phase. -/
theorem tickCountsAndEndsTheRange : Obligations.TickCountsAndEndsTheRange := by
  intro s
  refine ⟨fun before ahead => ?_, fun before => exec_not_due .calendarRangeEnd s before, ?_⟩
  · exact congrArg Host.Outcome.next ((tick_of_lt before).trans (fireDue_ahead (s := s.ticked) ahead))
  intro last ended i hi
  have ends : exec i s = .next (rangeEnd s) := by
    have tick : exec .calendarTick s = .next (rangeEnd s) := congrArg Host.Outcome.next (tick_of_last last)
    simp only [List.mem_cons, List.not_mem_nil, or_false] at hi
    rcases hi with rfl | rfl
    · exact tick
    · exact (exec_calendarRangeEnd_of_last last).trans tick
  have installs (n : Option NightPlan) (hc : s.calendar.cycle = .day n) : rangeEnd s = install 0 (ended .halted) := by
    simp only [rangeEnd, hc, haltDay]
    rfl
  refine ⟨fun n hc none => ?_, fun n hc _ => ?_, fun hc => ?_, fun n hc => ?_⟩
  · rw [ends, installs n hc, install_of_none (s := ended .halted) 0 none]
  · rw [ends, installs n hc]
  · rw [ends, rangeEnd, hc]
    rfl
  · rw [ends, rangeEnd, hc]
    rfl

/-! ### Window start, window end and grace end (R68 to R70) -/

/-- A boundary one second ahead is brought by the tick. -/
theorem reachBoundary_next {instant : Nat} (h : s.calendar.t + 1 = instant) (before : s.calendar.t < 3155759999) :
    reachBoundary instant s = fireDue s.ticked := by
  rw [reachBoundary, if_neg (by omega), if_pos h.symm, tick_of_lt before]

theorem exec_calendarTick_of_lt (h : s.calendar.t < 3155759999) :
    exec .calendarTick s = .next (fireDue s.ticked) :=
  congrArg Host.Outcome.next (tick_of_lt h)

theorem whenPowered_on {f : State → State} (on : s.retention.powered = true) : whenPowered f s = f s := if_pos on

/-- Settles O19. -/
theorem windowStartEntersTheNight : Obligations.WindowStartEntersTheNight := by
  intro s n i on hc length before reaches hi
  have fires : exec i s = .next (fireDue s.ticked) := by
    simp only [List.mem_cons, List.not_mem_nil, or_false] at hi
    rcases hi with rfl | rfl
    · refine congrArg Host.Outcome.next ((whenPowered_on on).trans ?_)
      simp only [reachWindowStart, hc]
      exact reachBoundary_next reaches before
    · exact exec_calendarTick_of_lt before
  have entered := fireDue_firesTo s.ticked
  have cycle : s.ticked.calendar.cycle = .day (some n) := hc
  have instant : s.ticked.calendar.t = 900 * n.window := reaches
  simp only [FiresTo, cycle, instant] at entered
  rw [fires, entered.2.1 (Nat.le_refl _) (by omega)]
  rfl

/-- The calendar after the held entries of a state have been taken is the state's. -/
theorem takeAllHeld_calendar (s : State) : (takeAllHeld s).calendar = s.calendar := (takeAllHeld_keeps s).2.2.2.1

/-- After a grace end no entry is held. -/
theorem takeAllHeld_held (s : State) : (takeAllHeld s).burst.held = [] :=
  List.eq_nil_iff_forall_not_mem.2 fun x hx => by
    have held := tget_isSome_of_mem hx
    rw [takeAllHeld_heldNone s x.1] at held
    cases held

/-- Settles O20: the tick fires window end alone, or grace end too where t has reached it. -/
theorem windowEndAndGraceEnd : Obligations.WindowEndAndGraceEnd := by
  intro s n i on before ticked u settling
  have fires := fireDue_firesTo ticked
  refine ⟨fun hc reaches hi => ?_, fun hc reaches hi => ?_⟩
  · have fired : exec i s = .next (fireDue ticked) := by
      simp only [List.mem_cons, List.not_mem_nil, or_false] at hi
      rcases hi with rfl | rfl
      · refine congrArg Host.Outcome.next ((whenPowered_on on).trans ?_)
        simp only [reachWindowEnd, hc]
        exact reachBoundary_next reaches before
      · exact exec_calendarTick_of_lt before
    have cycle : ticked.calendar.cycle = .opened n := hc
    have instant : ticked.calendar.t = 900 * (n.window + n.length) := reaches
    simp only [FiresTo, cycle, instant] at fires
    refine ⟨fun later => ?_, fun same => ?_⟩
    · rw [fired, fires.2.1 (Nat.le_refl _) (by omega)]
      rfl
    · have calendars : (takeAllHeld (endsWindow n ticked)).calendar = { ticked.calendar with cycle := .grace n } :=
        takeAllHeld_calendar _
      rw [fired, fires.2.2 (Nat.le_refl _) (by omega), endsGrace, calendars]
      simp only [settling, u, takeAllHeld_calendar]
      rfl
  · have fired : exec i s = .next (fireDue ticked) := by
      simp only [List.mem_cons, List.not_mem_nil, or_false] at hi
      rcases hi with rfl | rfl
      · refine congrArg Host.Outcome.next ((whenPowered_on on).trans ?_)
        simp only [reachGraceEnd, hc]
        exact reachBoundary_next reaches before
      · exact exec_calendarTick_of_lt before
    have cycle : ticked.calendar.cycle = .grace n := hc
    have instant : ticked.calendar.t = 900 * n.graceEnd := reaches
    simp only [FiresTo, cycle, instant] at fires
    refine ⟨?_, takeAllHeld_held _, heldOrder ticked, heldOrder_perm ticked, rfl⟩
    rw [fired, fires.2 (Nat.le_refl _)]
    rfl

end Sys2Proof.Machine
end

section
/-!
PROOFS. The judgement of an assessed night in each alarm state (section 5.2), and the hand-over and completion of a run
that write it down (sections 4.1, 4.2 and 8.2).
-/

namespace Sys2Proof.Machine

section Judgement

variable {night : Nat} {e : DistrictEntry} {b l : Nat} {r : DistrictRuntime}

/-- A night is HIGH or not by the threshold of R106. -/
theorem isHigh_eq_false_iff : isHigh e b l = false ↔
    ¬ (l : Int) - (b : Int) > ((max e.absThreshold (b * e.relThreshold / 100) : Nat) : Int) := by
  rw [← Bool.not_eq_true, isHigh_iff]

/-! ### LEARNING (R108) -/

/-- The baseline that a night of a LEARNING district gives it. -/
def learntBaseline (e : DistrictEntry) (l : Nat) (r : DistrictRuntime) : Nat :=
  match r.baseline with
  | none => l
  | some b => updateBaseline e.shift b l

theorem judgeLearning_of_lt (h : r.learnCount + 1 < e.learnNights) : judgeLearning e l r =
    ⟨{ r with baseline := some (learntBaseline e l r), learnCount := r.learnCount + 1 }, .learnt, none⟩ :=
  if_neg (Nat.not_le.2 h)

theorem judgeLearning_of_ge (h : e.learnNights ≤ r.learnCount + 1) : judgeLearning e l r =
    ⟨{ r with baseline := some (learntBaseline e l r), learnCount := 0, alarm := .quiet }, .learnt,
      some (.districtLearnt, (learntBaseline e l r : Int))⟩ :=
  if_pos h

/-! ### QUIET and WATCH (R109) -/

theorem judgeQuiet_normal (h : isHigh e b l = false) : judgeQuiet night e b l r =
    ⟨{ r with baseline := some (updateBaseline e.shift b l) }, .normal, none⟩ := by
  simp only [judgeQuiet, h, Bool.false_eq_true, if_false]

theorem judgeQuiet_raises (h : isHigh e b l = true) (confirm : e.confirmNights ≤ 1) :
    judgeQuiet night e b l r = raiseByNights night r := by
  simp only [judgeQuiet, h, if_true, if_pos confirm]

theorem judgeQuiet_watches (h : isHigh e b l = true) (confirm : 2 ≤ e.confirmNights) : judgeQuiet night e b l r =
    ⟨{ r with alarm := .watch, highCount := 1 }, .high, some (.watchEntered, excess l b)⟩ := by
  simp only [judgeQuiet, h, if_true, if_neg (Nat.not_le.2 confirm)]

theorem judgeWatch_normal (h : isHigh e b l = false) : judgeWatch night e b l r =
    ⟨{ r with alarm := .quiet, highCount := 0, baseline := some (updateBaseline e.shift b l) }, .normal, none⟩ := by
  simp only [judgeWatch, h, Bool.false_eq_true, if_false]

theorem judgeWatch_raises (h : isHigh e b l = true) (confirm : e.confirmNights ≤ r.highCount + 1) :
    judgeWatch night e b l r = raiseByNights night r := by
  simp only [judgeWatch, h, if_true, if_pos (show r.highCount + 1 ≥ e.confirmNights from confirm)]

theorem judgeWatch_counts (h : isHigh e b l = true) (confirm : r.highCount + 1 < e.confirmNights) :
    judgeWatch night e b l r = ⟨{ r with highCount := r.highCount + 1 }, .high, none⟩ := by
  simp only [judgeWatch, h, if_true, if_neg (show ¬ r.highCount + 1 ≥ e.confirmNights from Nat.not_le.2 confirm)]

/-! ### LEAK and STANDING (R110) -/

/-- The event by which a raised alarm clears. -/
def clearedBy (x : AlarmState) : EventKind := if x = .leak then .leakCleared else .repairConfirmed

theorem judgeAssessed_raised (h : r.alarm = .leak ∨ r.alarm = .standing) (hb : r.baseline = some b) :
    judgeAssessed night e l r = judgeRaised (clearedBy r.alarm) e b l r := by
  rcases h with leak | standing
  · rw [judgeAssessed_leak leak hb, leak]
    rfl
  · rw [judgeAssessed_standing standing hb, standing]
    rfl

theorem judgeRaised_high {cleared : EventKind} (h : isHigh e b l = true) : judgeRaised cleared e b l r =
    ⟨{ r with normalCount := 0 }, .high, none⟩ := by
  simp only [judgeRaised, h, if_true]

theorem judgeRaised_counts {cleared : EventKind} (h : isHigh e b l = false)
    (clear : r.normalCount + 1 < e.clearNights) : judgeRaised cleared e b l r =
      ⟨{ r with normalCount := r.normalCount + 1 }, .normal, none⟩ := by
  simp only [judgeRaised, h, Bool.false_eq_true, if_false,
    if_neg (show ¬ r.normalCount + 1 ≥ e.clearNights from Nat.not_le.2 clear)]

theorem judgeRaised_clears {cleared : EventKind} {a : AlarmRecord} (h : isHigh e b l = false)
    (clear : e.clearNights ≤ r.normalCount + 1) (record : r.record = some a) : judgeRaised cleared e b l r =
      ⟨{ r with alarm := .quiet, normalCount := 0, record := none }, .normal, some (cleared, (a.night : Int))⟩ := by
  simp only [judgeRaised, h, Bool.false_eq_true, if_false,
    if_pos (show r.normalCount + 1 ≥ e.clearNights from clear), record]

/-! ### The result -/

theorem judgeLearning_result : (judgeLearning e l r).result = .learnt := by
  unfold judgeLearning
  dsimp only
  split <;> rfl

theorem judgeQuiet_result : (judgeQuiet night e b l r).result = if isHigh e b l then .high else .normal := by
  unfold judgeQuiet
  split
  case isTrue high => split <;> rfl
  case isFalse normal => rfl

theorem judgeWatch_result : (judgeWatch night e b l r).result = if isHigh e b l then .high else .normal := by
  unfold judgeWatch
  split
  case isTrue high => split <;> rfl
  case isFalse normal => rfl

theorem judgeRaised_result {cleared : EventKind} :
    (judgeRaised cleared e b l r).result = if isHigh e b l then .high else .normal := by
  unfold judgeRaised
  split
  case isTrue high => rfl
  case isFalse normal => split <;> rfl

/-- Outside LEARNING the result says whether the night is HIGH. -/
theorem judgeAssessed_result (h : r.alarm ≠ .learning) : (judgeAssessed night e l r).result =
    if isHigh e (r.baseline.getD 0) l then .high else .normal := by
  unfold judgeAssessed
  split
  case h_1 learning => exact absurd learning h
  case h_2 => exact judgeQuiet_result
  case h_3 => exact judgeWatch_result
  all_goals exact judgeRaised_result

/-- An assessed night is never NOT_ASSESSED. -/
theorem judgeAssessed_result_ne : (judgeAssessed night e l r).result ≠ .notAssessed := by
  by_cases h : r.alarm = .learning
  · rw [judgeAssessed_learning h, judgeLearning_result]
    decide
  · rw [judgeAssessed_result h]
    split <;> decide

end Judgement

/-- Settles O30: the case of each alarm state by its own equation. -/
theorem judgementOfANight : Obligations.JudgementOfANight := by
  intro night e l r j
  refine ⟨fun learning => ?learning, fun b hb => ⟨fun other => ?result, fun quiet => ?quiet, fun watch => ?watch,
    fun raised => ?raised⟩⟩
  case learning =>
    have hj : j = judgeLearning e l r := judgeAssessed_learning learning
    refine ⟨by rw [hj, judgeLearning_result], fun more => ?_, fun enough => ?_⟩
    · rw [hj, judgeLearning_of_lt more]
      exact ⟨rfl, rfl⟩
    · rw [hj, judgeLearning_of_ge enough]
      exact ⟨rfl, rfl⟩
  case result =>
    have hr : j.result = if isHigh e b l then .high else .normal := by
      rw [← Option.getD_some (a := b) (b := 0), ← hb]
      exact judgeAssessed_result other
    exact ⟨fun high => by rw [hr, isHigh_iff.2 high, if_pos rfl],
      fun normal => by rw [hr, isHigh_eq_false_iff.2 normal]; rfl⟩
  case quiet =>
    have hj : j = judgeQuiet night e b l r := judgeAssessed_quiet quiet hb
    refine ⟨fun normal => ?_, fun high confirm => ?_, fun high confirm => ?_⟩
    · rw [hj, judgeQuiet_normal (isHigh_eq_false_iff.2 normal)]
      exact ⟨rfl, rfl⟩
    · rw [hj, judgeQuiet_raises (isHigh_iff.2 high) confirm]
      exact ⟨rfl, rfl⟩
    · rw [hj, judgeQuiet_watches (isHigh_iff.2 high) confirm]
      exact ⟨rfl, rfl⟩
  case watch =>
    have hj : j = judgeWatch night e b l r := judgeAssessed_watch watch hb
    refine ⟨fun normal => ?_, fun high confirm => ?_, fun high confirm => ?_⟩
    · rw [hj, judgeWatch_normal (isHigh_eq_false_iff.2 normal)]
      exact ⟨rfl, rfl⟩
    · rw [hj, judgeWatch_raises (isHigh_iff.2 high) confirm]
      exact ⟨rfl, rfl⟩
    · rw [hj, judgeWatch_counts (isHigh_iff.2 high) confirm]
      exact ⟨rfl, rfl⟩
  case raised =>
    have hj : j = judgeRaised (clearedBy r.alarm) e b l r := judgeAssessed_raised raised hb
    refine ⟨fun high => ?_, fun normal clear => ?_, fun a normal clear record => ?_⟩
    · rw [hj, judgeRaised_high (isHigh_iff.2 high)]
      exact ⟨rfl, rfl⟩
    · rw [hj, judgeRaised_counts (isHigh_eq_false_iff.2 normal) clear]
      exact ⟨rfl, rfl⟩
    · rw [hj, judgeRaised_clears (isHigh_eq_false_iff.2 normal) clear record]
      exact ⟨rfl, rfl⟩

/-! ### The hand-over (R84, R101) and the completion (R81) -/

section HandOver

variable {s : State} {run : Run} {d : Nat} {rest : List Nat} {e : DistrictEntry} {r : DistrictRuntime}

theorem exec_handOver_of_head (on : s.retention.powered = true) (hs : s.settlement = some run)
    (infilled : run.infilled = true) (head : run.remaining = d :: rest) :
    exec .handOver s = .next (handOverDistrict { run with remaining := rest } d s) := by
  refine congrArg Host.Outcome.next ((whenPowered_on on).trans ?_)
  simp only [handOverEvent, hs, infilled, head]

theorem alreadySettled_iff {night : Nat} :
    alreadySettled night r = true ↔ ∃ n, r.lastSettled = some n ∧ night ≤ n := by
  unfold alreadySettled
  cases r.lastSettled <;> simp

theorem alreadySettled_eq_false {night : Nat} (h : ∀ n, r.lastSettled = some n → n < night) :
    alreadySettled night r = false := by
  rw [Bool.eq_false_iff, ne_eq, alreadySettled_iff]
  rintro ⟨n, hn, later⟩
  exact Nat.not_le.2 (h n hn) later

theorem handOverDistrict_skips (found : districtOf s d = some (e, r)) (settled : alreadySettled run.date r = true) :
    handOverDistrict run d s = s.setSettlement (some run) := by
  simp only [handOverDistrict, found, settled, if_true]

theorem handOverDistrict_judges (found : districtOf s d = some (e, r)) (new : alreadySettled run.date r = false) :
    handOverDistrict run d s = judgeAndRecord run d e r s := by
  simp only [handOverDistrict, found, new, Bool.false_eq_true, if_false]

/-- The counts after an assessed result. -/
theorem countResult_assessed {x : NightResult} (h : x ≠ .notAssessed) : countResult run x =
    { run with assessed := run.assessed + 1, high := if x = .high then run.high + 1 else run.high } := by
  cases x with
  | notAssessed => exact absurd rfl h
  | high => rfl
  | learnt => rfl
  | normal => rfl

/-- The event of a judgement is appended as a list of at most one. -/
theorem appendJudged_eq_appendAll (night : Nat) (event : Option (EventKind × Int)) :
    appendJudged d night event s = appendAll (event.toList.map fun v => (v.1, d, night, v.2)) s := by
  cases event <;> rfl

/-- A district that is NOT_ASSESSED keeps its runtime but for the settled night (R105). -/
theorem judgeAndRecord_notAssessed {reason : Reason} (h : (settleDistrict s run e).outcome = .inl reason) :
    judgeAndRecord run d e r s = { s with
      districts := tput s.districts d { r with lastSettled := some run.date, configMark := false }
      history := tput s.history d (pushRecord (ringOf s.history d)
        { date := run.date, code := e.code, result := .notAssessed, reason := some reason
          conditions := ⟨false, false, false, false, false, hasIdx s.burst.raised d, run.clockStepped, r.configMark⟩
          positions := (settleDistrict s run e).positions, minPosition := none, mnf := none, lnu := lnu e
          leakage := none, pavg := none, lnorm := none, baselineAfter := none, alarmAfter := r.alarm })
      settlement := some { run with notAssessed := run.notAssessed + 1 } } := by
  rw [judgeAndRecord_eq, h]
  rfl

/-- A district with figures is judged by them (R101, R105). -/
theorem judgeAndRecord_assessed {fig : Figures} (h : (settleDistrict s run e).outcome = .inr fig) :
    let j := judgeAssessed run.date e fig.lnorm r
    let appended := appendAll (j.event.toList.map fun v => (v.1, d, run.date, v.2)) s
    judgeAndRecord run d e r s = { s with
      districts := tput s.districts d { j.runtime with lastSettled := some run.date, configMark := false }
      history := tput s.history d (pushRecord (ringOf s.history d)
        { date := run.date, code := e.code, result := j.result, reason := none
          conditions := ⟨decide (fig.mnf < 0), fig.belowAllowance, fig.pavg.isNone, fig.clamped, fig.infilled,
            hasIdx s.burst.raised d, run.clockStepped, r.configMark⟩
          positions := (settleDistrict s run e).positions, minPosition := some fig.minPosition, mnf := some fig.mnf
          lnu := lnu e, leakage := some fig.leakage, pavg := fig.pavg, lnorm := some fig.lnorm
          baselineAfter := j.runtime.baseline, alarmAfter := j.runtime.alarm })
      settlement := some { run with
        assessed := run.assessed + 1, high := if j.result = .high then run.high + 1 else run.high }
      events := appended.events
      ports := appended.ports } := by
  intro j appended
  rw [judgeAndRecord_eq, h, appendJudged_eq_appendAll]
  simp only [judgeResult, countResult_assessed judgeAssessed_result_ne]
  rfl

end HandOver

theorem isNone_eq_decide {α : Type} [DecidableEq α] (x : Option α) : x.isNone = decide (x = none) := by
  cases x <;> simp

/-- Settles O23: the head of the list is skipped or judged, and a run with nothing left completes. -/
theorem handOverAndCompletion : Obligations.HandOverAndCompletion := by
  intro s run on hs infilled
  refine ⟨fun d rest e r head he hr => ?_, fun empty => ?_⟩
  · have found : districtOf s d = some (e, r) := districtOf_eq_some he hr
    have exec := exec_handOver_of_head on hs infilled head
    have judges (earlier : ∀ n, r.lastSettled = some n → n < run.date) :=
      handOverDistrict_judges (run := { run with remaining := rest }) found (alreadySettled_eq_false earlier)
    refine ⟨fun settled => ?_, fun reason earlier outcome => ?_, fun fig earlier outcome => ?_⟩
    · rw [exec, handOverDistrict_skips (run := { run with remaining := rest }) found (alreadySettled_iff.2 settled)]
      rfl
    · rw [exec, judges earlier, judgeAndRecord_notAssessed outcome]
      rfl
    · rw [exec, judges earlier, judgeAndRecord_assessed outcome, isNone_eq_decide]
      rfl
  · refine congrArg Host.Outcome.next ((whenPowered_on on).trans ?_)
    simp only [completeEvent, hs, infilled, empty, settledDetail]
    push_cast
    rfl

end Sys2Proof.Machine
end

section
/-!
PROOFS. The checks that come before an owner's own: the length of a payload (section 10.5), and the staging hold, which
an edit is asked for first (sections 2.4 and 2.5).
-/

namespace Sys2Proof.Machine

variable {i : Instr} {s t : State} {p : Port} {k : Nat} {f : Frame} {rest : List Frame} {payload out : List Octet}
  {x : Status} {h : Hold} {c : ConfigSet} {edit : ConfigSet → Except Status ConfigSet}

/-! ### The hold and an edit (R37) -/

theorem heldBy_eq_none : heldBy s p = none ↔ ¬ ∃ h, s.config.hold = some h ∧ h.port = p := by
  simp only [Option.eq_none_iff_forall_ne_some, ne_eq, heldBy_eq_some, not_exists]

theorem editStaging_notHolder (none : heldBy s p = none) : editStaging edit p s = (s, refusal .notHolder) := by
  simp only [editStaging, none]

theorem editStaging_error (held : heldBy s p = some h) (error : edit h.staging = .error x) :
    editStaging edit p s = (s, refusal x) := by
  simp only [editStaging, held, error]

theorem editStaging_ok (held : heldBy s p = some h) (ok : edit h.staging = .ok c) :
    editStaging edit p s = (s.setHold (some { h with staging := c, timer := 300 }), ⟨.ok, []⟩) := by
  simp only [editStaging, held, ok]
  rfl

/-! ### The lengths of the two payloads of varying length -/

theorem ownReadings_format (wrong : ¬ LengthFits 0x01 payload) :
    ownReadings p payload s = (s, refusal .format) := by
  unfold ownReadings
  split
  · rename_i a1 a0 d1 d0 first count values
    refine if_pos (Decidable.byContradiction fun fits => wrong ?_)
    have hn : (a1 :: a0 :: d1 :: d0 :: first :: count :: values).length = values.length + 6 := rfl
    refine ⟨by omega, ?_, ?_, ?_⟩ <;> show _ <;> simp only [List.getD_cons_succ, List.getD_cons_zero] <;> omega
  · rfl

/-- An EDIT_DMA payload is read exactly when its length is that of a term count of 1 to 8. -/
theorem readDistrict_eq_none_iff : readDistrict payload = none ↔ ¬ LengthFits 0x07 payload := by
  show _ ↔ ¬ (4 ≤ payload.length ∧ 1 ≤ (payload.getD 3 0).toNat ∧ (payload.getD 3 0).toNat ≤ 8 ∧
    payload.length = 30 + 2 * (payload.getD 3 0).toNat)
  unfold readDistrict
  split
  · rename_i d c1 c0 n rest
    have hn : (d :: c1 :: c0 :: n :: rest).length = rest.length + 4 := rfl
    simp only [List.getD_cons_succ, List.getD_cons_zero, hn]
    split
    · simp only [true_iff]
      omega
    · have length : (rest.drop (2 * n.toNat)).length = rest.length - 2 * n.toNat := List.length_drop
      split
      · rename_i tail
        rw [tail] at length
        simp only [List.length_cons, List.length_nil] at length
        simp only [reduceCtorEq, false_iff, not_not]
        omega
      · rename_i other
        refine iff_of_true rfl fun fits => ?_
        generalize rest.drop (2 * n.toNat) = tail at length other
        match tail, (show tail.length = 26 by omega), other with
        | [_, _, _, _, _, _, _, _, _, _, _, _, _, _, _, _, _, _, _, _, _, _, _, _, _, _], _, other =>
          exact other _ _ _ _ _ _ _ _ _ _ _ _ _ _ _ _ _ _ _ _ _ _ _ _ _ _ rfl
  · rename_i other
    refine iff_of_true rfl fun fits => ?_
    match payload, fits.1, other with
    | _ :: _ :: _ :: _ :: _, _, other => exact other _ _ _ _ _ rfl

theorem editDmaSet_format (wrong : ¬ LengthFits 0x07 payload) : editDmaSet payload c = .error .format := by
  simp only [editDmaSet, readDistrict_eq_none_iff.2 wrong]

/-! ### Every row's length (section 10.5) -/

/-- The edits of the staging set, which ask for the hold before anything else (log 20). -/
def editOf (i : Instr) : Option (List Octet → ConfigSet → Except Status ConfigSet) :=
  match i with
  | .editMeter _ => some editMeterSet
  | .editMeterDrop _ => some dropMeterSet
  | .editDma _ => some editDmaSet
  | .editDmaDrop _ => some dropDmaSet
  | .editNight _ => some editNightSet
  | _ => none

theorem editOf_isSome (hi : requestOf i = some (p, k)) : (editOf i).isSome ↔ k ∈ [0x05, 0x06, 0x07, 0x08, 0x09] := by
  cases i <;> cases hi <;> simp [editOf]

theorem ownerOf_edit {e : List Octet → ConfigSet → Except Status ConfigSet} (he : editOf i = some e) :
    ownerOf i p payload s = editStaging (e payload) p s := by
  cases i <;> cases he <;> rfl

/-- An edit refuses a payload of another length. -/
theorem editOf_format {e : List Octet → ConfigSet → Except Status ConfigSet} (he : editOf i = some e)
    (hi : requestOf i = some (p, k)) (wrong : ¬ LengthFits k payload) : e payload c = .error .format := by
  cases i with
  | editDma => cases he; cases hi; exact editDmaSet_format wrong
  | editMeter | editMeterDrop | editDmaDrop | editNight =>
    cases he
    cases hi
    simp only [editMeterSet, dropMeterSet, dropDmaSet, editNightSet]
    split
    · exact absurd rfl wrong
    · rfl
  | _ => cases he

theorem ownDaylightSaving_format (wrong : ¬ LengthFits 0x19 payload) :
    ownDaylightSaving p payload s = (s, refusal .format) := by
  unfold ownDaylightSaving
  split
  · rename_i item _ _ _ _ _ _ _ _ _
    refine if_pos fun one => wrong (.inl ⟨?_, rfl⟩)
    rw [List.head?_cons, BitVec.eq_of_toNat_eq (x := item) (y := 1) one]
  · rfl

theorem ownPortSettings_format (wrong : ¬ LengthFits 0x19 payload) :
    ownPortSettings p payload s = (s, refusal .format) := by
  unfold ownPortSettings
  split
  · rename_i item _ _ _
    refine if_pos fun two => wrong (.inr ⟨?_, rfl⟩)
    rw [List.head?_cons, BitVec.eq_of_toNat_eq (x := item) (y := 2) two]
  · rfl

/-- Every other row refuses a payload of another length before it looks at a field. -/
theorem ownerOf_format (hi : requestOf i = some (p, k)) (wrong : ¬ LengthFits k payload) (noEdit : editOf i = none) :
    ownerOf i p payload s = (s, refusal .format) := by
  cases i with
  | readings => cases hi; exact ownReadings_format wrong
  | eventRead => cases hi; exact ownEventRead_format wrong
  | paramSetDaylightSaving => cases hi; exact ownDaylightSaving_format (p := p) wrong
  | paramSetPortSettings => cases hi; exact ownPortSettings_format (p := p) wrong
  | timeSet | timeGet | editOpen | editCommit | editDiscard | configRead | suspend | resume | suspendList | leakAck
    | rebase | relearn | dmaStatus | meterStatus | nightRead | flagClear | flagMask | partStatus =>
    cases hi
    simp only [ownerOf, ownTimeSet, ownTimeGet, ownEditOpen, ownEditCommit, ownEditDiscard, ownConfigRead, ownSuspend,
      ownResume, ownSuspendList, ownLeakAck, ownRebase, ownRelearn, ownDmaStatus, ownMeterStatus, ownNightRead,
      ownFlagClear, ownFlagMask, ownPartStatus]
    split
    · exact absurd rfl wrong
    · rfl
  | editMeter | editMeterDrop | editDma | editDmaDrop | editNight => cases noEdit
  | _ => cases hi

/-- Settles O5: an edit asks for the hold first, every other row for the length. -/
theorem lengthAndHoldAreChecked : Obligations.LengthAndHoldAreChecked := by
  intro s p f rest i k ready hi kind item role edits holds
  have answered {x : Status} (answer : ownerOf i p f.payload (s.takeFrame p) = (s.takeFrame p, refusal x)) :
      exec i s = .next (replied s p f (s.takeFrame p) x []) :=
    exec_of_answer hi ready kind item role answer
  refine ⟨fun wrong editsHold => answered ?_, fun free editing => answered ?_⟩
  · cases he : editOf i with
    | none => exact ownerOf_format hi wrong he
    | some e =>
      obtain ⟨h, hold, port⟩ := editsHold ((editOf_isSome hi).1 (he ▸ rfl))
      rw [ownerOf_edit he]
      exact editStaging_error (heldBy_eq_some.2 ⟨hold, port⟩) (editOf_format he hi wrong)
  · have none : heldBy (s.takeFrame p) p = none := heldBy_eq_none.2 free
    rcases editing with edit | ⟨ends, empty⟩
    · obtain ⟨e, he⟩ := Option.isSome_iff_exists.1 ((editOf_isSome hi).2 edit)
      rw [ownerOf_edit he, editStaging_notHolder none]
    · rw [empty]
      cases i with
      | editCommit | editDiscard =>
        cases hi
        simp only [ownerOf, ownEditCommit, ownEditDiscard, none]
      | _ => cases hi <;> simp at ends

end Sys2Proof.Machine
end

section
/-!
PROOFS. Fields laid out and read back (section 10.5), and the edits of the staging set (section 2.4): what each writes,
and what it refuses.
-/

namespace Sys2Proof.Machine

/-! ### Fields laid out and read back -/

section Fields

variable {n : Nat}

theorem oct_toNat (h : n ≤ 255) : (oct n).toNat = n := by
  rw [oct, BitVec.toNat_ofNat]
  omega

theorem oct_of_toNat (o : Octet) : oct o.toNat = o := by
  rw [oct, BitVec.ofNat_toNat, BitVec.setWidth_eq]

theorem u16_be16 (h : n ≤ 65535) : u16 (oct (n / 256)) (oct n) = n := by
  simp only [u16, oct, BitVec.toNat_ofNat]
  omega

theorem be16_u16 (a b : Octet) : be16 (u16 a b) = [a, b] := by
  have := a.isLt
  have := b.isLt
  simp only [be16, u16, List.cons.injEq, and_true]
  constructor <;> refine BitVec.eq_of_toNat_eq ?_ <;> simp only [oct, BitVec.toNat_ofNat] <;> omega

theorem u32_be32 (h : n ≤ 4294967295) : u32 (oct (n / 16777216)) (oct (n / 65536)) (oct (n / 256)) (oct n) = n := by
  simp only [u32, oct, BitVec.toNat_ofNat]
  omega

theorem be32_u32 (a b c d : Octet) : be32 (u32 a b c d) = [a, b, c, d] := by
  have := a.isLt
  have := b.isLt
  have := c.isLt
  have := d.isLt
  simp only [be32, u32, List.cons.injEq, and_true]
  refine ⟨?_, ?_, ?_, ?_⟩ <;> refine BitVec.eq_of_toNat_eq ?_ <;> simp only [oct, BitVec.toNat_ofNat] <;> omega

/-- A list of 16-bit fields is read back as it was laid out. -/
theorem words16_flatMap {l : List Nat} (h : ∀ n ∈ l, n ≤ 65535) : words16 (l.flatMap be16) = l := by
  induction l with
  | nil => rfl
  | cons n rest ih =>
    have first := u16_be16 (h n List.mem_cons_self)
    simp only [List.flatMap_cons, be16, List.cons_append, List.nil_append, words16, first]
    rw [ih fun m hm => h m (List.mem_cons_of_mem n hm)]

/-- An even number of octets is what the 16-bit fields it holds lay out. -/
theorem flatMap_words16 {os : List Octet} (h : os.length % 2 = 0) : (words16 os).flatMap be16 = os := by
  induction os using words16.induct with
  | case1 a b rest ih =>
    simp only [List.length_cons] at h
    rw [words16, List.flatMap_cons, be16_u16, ih (by omega)]
    rfl
  | case2 os other =>
    match os, h, other with
    | [], _, _ => rfl
    | [_], h, _ => cases h
    | a :: b :: rest, _, other => exact absurd rfl (other a b rest)

theorem flatMap_be16_length (l : List Nat) : (l.flatMap be16).length = 2 * l.length := by
  induction l with
  | nil => rfl
  | cons n rest ih =>
    rw [List.flatMap_cons, List.length_append, ih, List.length_cons, be16]
    simp only [List.length_cons, List.length_nil]
    omega

end Fields

/-! ### Terms and districts -/

section Districts

variable {d : Nat} {e : DistrictEntry} {payload : List Octet} {codes : List Nat}

theorem termOfCode_termCode (x : Term) : termOfCode (termCode x) = x := by
  obtain ⟨m, sign⟩ := x
  cases sign with
  | inlet => simp [termOfCode, termCode]
  | outlet =>
    have div : (m * 2 + 1) / 2 = m := by omega
    have mod : (m * 2 + 1) % 2 = 1 := by omega
    simp [termOfCode, termCode, div, mod]

theorem termCode_termOfCode (code : Nat) : termCode (termOfCode code) = code := by
  simp only [termOfCode, termCode]
  split <;> rename_i h <;> split at h <;> first | omega | cases h

theorem termCode_le {x : Term} : termCode x ≤ 511 ↔ x.meter ≤ 255 := by
  obtain ⟨m, sign⟩ := x
  cases sign <;> simp only [termCode] <;> omega

/-- A pressure point is read back as it was laid out; 0xFFFF marks it absent. -/
theorem readPressurePoint_lay {x : Option Nat} (h : ∀ m ∈ x, m ≤ 255) :
    ∃ a b, orAbsent (be16 0xFFFF) be16 x = [a, b] ∧ readPressurePoint (u16 a b) = x := by
  cases x with
  | none => exact ⟨_, _, rfl, by decide⟩
  | some m =>
    have hm := h m rfl
    refine ⟨_, _, rfl, ?_⟩
    rw [u16_be16 (by omega), readPressurePoint, if_neg (by omega)]

theorem lay_readPressurePoint (a b : Octet) :
    orAbsent (be16 0xFFFF) be16 (readPressurePoint (u16 a b)) = [a, b] := by
  unfold readPressurePoint
  split
  · rename_i absent
    rw [orAbsent, ← absent, be16_u16]
  · rw [orAbsent, be16_u16]

/-- An entry in range is read back as it was laid out. -/
theorem readDistrict_layDistrict (h : e.InRange d) :
    readDistrict (layDistrict d e) = some (d, e.terms.map termCode, e) := by
  obtain ⟨hd, code, terms, terms', meters, properties, perProperty, nonHousehold, point, -, refPressure, exponent, -,
    minCoverage, absThreshold, relThreshold, -, confirmNights, -, clearNights, -, learnNights, -, shift,
    burstThreshold⟩ := h
  obtain ⟨pp1, pp0, layPoint, readPoint⟩ := readPressurePoint_lay point
  have count : (oct e.terms.length).toNat = e.terms.length := oct_toNat (by omega)
  have hl : (e.terms.flatMap fun x => be16 (termCode x)) = (e.terms.map termCode).flatMap be16 := by
    rw [List.flatMap_map]
  have hlen : ((e.terms.map termCode).flatMap be16).length = 2 * e.terms.length := by
    rw [flatMap_be16_length, List.length_map]
  have hcodes : words16 ((e.terms.map termCode).flatMap be16) = e.terms.map termCode := by
    refine words16_flatMap fun n hn => ?_
    obtain ⟨x, hx, rfl⟩ := List.mem_map.1 hn
    have := termCode_le.2 (meters x hx)
    omega
  have hterms : (e.terms.map termCode).map termOfCode = e.terms := by
    rw [List.map_map]
    exact (List.map_congr_left fun x _ => termOfCode_termCode x).trans (List.map_id _)
  have lay : layDistrict d e = oct d :: oct (e.code / 256) :: oct e.code :: oct e.terms.length ::
      ((e.terms.map termCode).flatMap be16 ++ (be16 e.properties ++ [oct e.perProperty] ++ be32 e.nonHousehold ++
        [pp1, pp0] ++ be16 e.refPressure ++ [oct e.exponent, oct e.minCoverage] ++ be32 e.absThreshold ++
        [oct e.relThreshold, oct e.confirmNights, oct e.clearNights, oct e.learnNights, oct e.shift] ++
        be32 e.burstThreshold)) := by
    rw [layDistrict, layPoint, hl]
    simp only [be16, List.cons_append, List.nil_append, List.append_assoc]
  rw [lay, readDistrict]
  simp only [count, if_neg (show ¬ (e.terms.length < 1 ∨ 8 < e.terms.length) by omega), List.take_left' hlen,
    List.drop_left' hlen, hcodes, hterms]
  simp (disch := omega) only [be16, be32, List.cons_append, List.nil_append, u16_be16, u32_be32, oct_toNat, readPoint]

/-- What is read from a payload is what the payload lays out. -/
theorem layDistrict_of_readDistrict (h : readDistrict payload = some (d, codes, e)) :
    payload = layDistrict d e ∧ codes = e.terms.map termCode ∧ e.code ≤ 65535 ∧ 1 ≤ e.terms.length ∧
      e.terms.length ≤ 8 ∧ e.properties ≤ 65535 ∧ e.perProperty ≤ 255 ∧ e.relThreshold ≤ 255 := by
  unfold readDistrict at h
  split at h
  case h_2 => cases h
  rename_i d c1 c0 n rest
  split at h
  case isTrue => cases h
  rename_i count
  dsimp only at h
  split at h
  case h_2 => cases h
  rename_i p1 p0 a q3 q2 q1 q0 pp1 pp0 r1 r0 ex rm t3 t2 t1 t0 tr k m ln sh b3 b2 b1 b0 tail
  have hlen : (rest.take (2 * n.toNat)).length = 2 * n.toNat := by
    have := congrArg List.length tail
    rw [List.length_drop] at this
    simp only [List.length_cons, List.length_nil] at this
    rw [List.length_take]
    omega
  have hcodes : (words16 (rest.take (2 * n.toNat))).flatMap be16 = rest.take (2 * n.toNat) :=
    flatMap_words16 (by omega)
  have hterms : ((words16 (rest.take (2 * n.toNat))).map termOfCode).map termCode =
      words16 (rest.take (2 * n.toNat)) := by
    rw [List.map_map]
    exact (List.map_congr_left fun x _ => termCode_termOfCode x).trans (List.map_id _)
  have hcount : (words16 (rest.take (2 * n.toNat))).length = n.toNat := by
    have := flatMap_be16_length (words16 (rest.take (2 * n.toNat)))
    rw [hcodes] at this
    omega
  have hrest : rest = rest.take (2 * n.toNat) ++ rest.drop (2 * n.toNat) := (List.take_append_drop _ _).symm
  simp only [Option.some.injEq, Prod.mk.injEq] at h
  obtain ⟨rfl, rfl, rfl⟩ := h
  refine ⟨?_, hterms.symm, u16_le _ _, ?_, ?_, u16_le _ _, ?_, ?_⟩
  · have hl : (((words16 (rest.take (2 * n.toNat))).map termOfCode).flatMap fun x => be16 (termCode x)) =
        rest.take (2 * n.toNat) := by
      rw [← List.flatMap_map, hterms, hcodes]
    simp only [layDistrict, hl, lay_readPressurePoint, be16_u16, be32_u32, oct_of_toNat, List.length_map, hcount]
    simp only [List.cons_append, List.nil_append, List.append_assoc, List.cons.injEq, true_and]
    rw [← tail, ← hrest]
  · rw [List.length_map, hcount]
    omega
  · rw [List.length_map, hcount]
    omega
  · exact Nat.le_of_lt_succ a.isLt
  · exact Nat.le_of_lt_succ tr.isLt

/-- The checks that EDIT_DMA makes of what it reads are the ranges of R28. -/
theorem districtChecks_iff (h : readDistrict payload = some (d, codes, e)) :
    ¬ (63 < d ∨ codes.any (fun x => decide (511 < x)) = true ∨ (!districtInRange e) = true) ↔ e.InRange d := by
  obtain ⟨-, rfl, code, terms, terms', properties, perProperty, relThreshold⟩ := layDistrict_of_readDistrict h
  have hmeters : (∃ x ∈ e.terms, 511 < termCode x) ↔ ¬ ∀ x ∈ e.terms, x.meter ≤ 255 := by
    push Not
    exact exists_congr fun x => and_congr_right fun _ => by rw [← Nat.not_le, termCode_le, Nat.not_le]
  simp only [List.any_map, List.any_eq_true, Function.comp_apply, decide_eq_true_eq, hmeters, Bool.not_eq_true',
    districtInRange, decide_eq_false_iff_not, not_or, not_not, Nat.not_lt, DistrictEntry.InRange]
  tauto

end Districts

/-! ### Meters and the night parameters -/

section Meters

variable {a w m : Nat} {x : Octet}

theorem decide_toNat_eq_one : decide (x.toNat = 1) = decide (x = 1) :=
  decide_eq_decide.2 ⟨fun h => BitVec.eq_of_toNat_eq h, fun h => h ▸ rfl⟩

theorem readMeter_flow (ha : 1 ≤ a) (ha' : a ≤ 65534) (hw : w ≤ 6) (hm : 1 ≤ m) (hm' : m ≤ 65534)
    (hx : x.toNat ≤ 1) : readMeter a 0 w m x.toNat = some ⟨a, .flow w, m, decide (x = 1)⟩ := by
  simp only [readMeter, if_neg (show ¬ (a = 0 ∨ a = 65535) by omega), if_true, if_pos hw,
    if_neg (show ¬ (m = 0 ∨ m = 65535 ∨ x.toNat > 1) by omega), decide_toNat_eq_one]

theorem readMeter_pressure (ha : 1 ≤ a) (ha' : a ≤ 65534) (hm : 1 ≤ m) (hm' : m ≤ 2000) (hx : x.toNat ≤ 1) :
    readMeter a 1 0xFF m x.toNat = some ⟨a, .pressure, m, decide (x = 1)⟩ := by
  simp only [readMeter, if_neg (show ¬ (a = 0 ∨ a = 65535) by omega), if_neg Nat.one_ne_zero, if_true,
    if_neg (show ¬ (m = 0 ∨ m > 2000 ∨ x.toNat > 1) by omega), decide_toNat_eq_one]

/-- A field out of range makes the entry unreadable. -/
theorem readMeter_eq_none {kind infill : Nat} (h : a = 0 ∨ a = 65535 ∨ 1 < kind ∨ 1 < infill ∨
    (kind = 0 ∧ (6 < w ∨ m = 0 ∨ m = 65535)) ∨ (kind = 1 ∧ (w ≠ 0xFF ∨ m = 0 ∨ 2000 < m))) :
    readMeter a kind w m infill = none := by
  unfold readMeter
  split
  · rfl
  · rename_i address
    dsimp only
    split
    · rfl
    · rename_i read
      split at read
      · split at read
        · exact if_pos (by omega)
        · cases read
      · split at read
        · split at read <;> cases read
        · cases read
    · rename_i read
      split at read
      · split at read <;> cases read
      · split at read
        · split at read
          · exact if_pos (by omega)
          · cases read
        · cases read

end Meters

/-! ### The edits (R38 to R42) -/

section Edits

variable {i : Instr} {s : State} {p : Port} {f : Frame} {kind : Octet} {payload : List Octet} {x : Status} {h : Hold}
  {c : ConfigSet} {e : List Octet → ConfigSet → Except Status ConfigSet}

/-- Ports B and C may edit. -/
theorem mem_editors (h : p ≠ .a) : p ∈ [Port.b, Port.c] := by
  cases p with
  | a => exact absurd rfl h
  | b => exact List.mem_cons_self
  | c => exact List.mem_cons_of_mem _ List.mem_cons_self

theorem HolderTaking.held (h' : HolderTaking s p f kind payload h) : heldBy (s.takeFrame p) p = some h :=
  heldBy_eq_some.2 ⟨h'.2.2.1, h'.2.2.2⟩

theorem edit_role {k : Nat} (he : editOf i = some e) (hi : requestOf i = some (p, k)) :
    ItemFits i f ∧ roleTable k = [.b, .c] := by
  cases i <;> cases he <;> cases hi <;> exact ⟨trivial, rfl⟩

/-- An edit of the holder that its own checks pass is made, and restarts the timer. -/
theorem exec_edit_ok (taking : HolderTaking s p f kind payload h) (he : editOf i = some e)
    (hi : requestOf i = some (p, kind.toNat)) (ok : e payload h.staging = .ok c) :
    exec i s = .next (replied s p f
      ((s.takeFrame p).setHold (some { h with staging := c, timer := 300 })) .ok []) := by
  obtain ⟨fits, role⟩ := edit_role he hi (f := f)
  exact exec_of_taking taking.1 hi fits (role ▸ mem_editors taking.2.1)
    (by rw [ownerOf_edit he]; exact editStaging_ok taking.held ok)

/-- An edit of the holder that its own checks refuse changes nothing. -/
theorem exec_edit_error (taking : HolderTaking s p f kind payload h) (he : editOf i = some e)
    (hi : requestOf i = some (p, kind.toNat)) (error : e payload h.staging = .error x) :
    exec i s = .next (replied s p f (s.takeFrame p) x []) := by
  obtain ⟨fits, role⟩ := edit_role he hi (f := f)
  exact exec_of_taking taking.1 hi fits (role ▸ mem_editors taking.2.1)
    (by rw [ownerOf_edit he]; exact editStaging_error taking.held error)

theorem lengthFits_dma : LengthFits 0x07 payload ↔ 4 ≤ payload.length ∧ 1 ≤ (payload.getD 3 0).toNat ∧
    (payload.getD 3 0).toNat ≤ 8 ∧ payload.length = 30 + 2 * (payload.getD 3 0).toNat := Iff.rfl

variable {i1 i0 a1 a0 k w m1 m0 o : Octet}

theorem editMeterSet_ok {e : MeterEntry} (index : u16 i1 i0 ≤ 255)
    (read : readMeter (u16 a1 a0) k.toNat w.toNat (u16 m1 m0) o.toNat = some e) :
    editMeterSet [i1, i0, a1, a0, k, w, m1, m0, o] c = .ok { c with meters := tput c.meters (u16 i1 i0) e } := by
  simp only [editMeterSet, if_neg (Nat.not_lt.2 index), read]

theorem editMeterSet_range (outside : 255 < u16 i1 i0 ∨
    readMeter (u16 a1 a0) k.toNat w.toNat (u16 m1 m0) o.toNat = none) :
    editMeterSet [i1, i0, a1, a0, k, w, m1, m0, o] c = .error .range := by
  simp only [editMeterSet]
  split
  · rfl
  · rw [outside.resolve_left ‹_›]

end Edits

/-- Settles O6: what is laid out is read back, and what is read in range is what was laid out. -/
theorem editDmaWritesOneEntry : Obligations.EditDmaWritesOneEntry := by
  intro s p f h
  refine ⟨fun d e inRange taking => ?_, fun payload taking => ⟨fun wrong => ?_, fun count count' length other => ?_⟩⟩
  · have read := readDistrict_layDistrict inRange
    refine exec_edit_ok taking rfl rfl ?_
    simp only [editDmaSet, read, if_neg ((districtChecks_iff read).2 inRange)]
  · refine exec_edit_error taking rfl rfl (editDmaSet_format fun fits => ?_)
    obtain ⟨enough, least, most, length⟩ := lengthFits_dma.1 fits
    omega
  · refine exec_edit_error taking rfl rfl ?_
    have fits : LengthFits 0x07 payload := ⟨by omega, count, count', length⟩
    obtain ⟨⟨d, codes, e⟩, read⟩ := Option.ne_none_iff_exists'.1 (mt readDistrict_eq_none_iff.1 (not_not.2 fits))
    have outside : ¬ e.InRange d := fun inRange => other d e inRange (layDistrict_of_readDistrict read).1
    simp only [editDmaSet, read, if_pos (not_not.1 (mt (districtChecks_iff read).1 outside))]

/-- Settles O7. -/
theorem editsChangeOnePlace : Obligations.EditsChangeOnePlace := by
  intro s p f h edited
  refine ⟨fun i1 i0 a1 a0 k w m1 m0 x taking => ?meter, fun i1 i0 taking => ?meterDrop, fun d taking => ?dmaDrop,
    fun w n g taking => ?night⟩
  case meter =>
    intro written
    refine ⟨fun index address address' flow weight least most mark => ?_,
      fun index address address' pressure weight least most mark => ?_, fun outside => ?_⟩
    · subst flow
      exact exec_edit_ok taking rfl rfl
        (editMeterSet_ok index (readMeter_flow address address' weight least most mark))
    · subst pressure weight
      exact exec_edit_ok taking rfl rfl (editMeterSet_ok index (readMeter_pressure address address' least most mark))
    · refine exec_edit_error taking rfl rfl (editMeterSet_range (outside.imp_right fun fields => readMeter_eq_none ?_))
      exact fields.imp id (.imp id (.imp id (.imp id (.imp
        (fun flow => ⟨congrArg BitVec.toNat flow.1, flow.2⟩)
        fun pressure => ⟨congrArg BitVec.toNat pressure.1,
          pressure.2.imp (fun other same => other (BitVec.eq_of_toNat_eq same)) id⟩))))
  case meterDrop =>
    split
    · rename_i outside
      exact exec_edit_error taking rfl rfl (by simp only [dropMeterSet, if_pos outside])
    · rename_i index
      split
      · rename_i empty
        exact exec_edit_error taking rfl rfl
          (by simp only [dropMeterSet, if_neg index, Option.isNone_iff_eq_none.1 empty])
      · rename_i there
        obtain ⟨e, he⟩ := Option.ne_none_iff_exists'.1 (mt Option.isNone_iff_eq_none.2 there)
        exact exec_edit_ok taking rfl rfl (by simp only [dropMeterSet, if_neg index, he]; rfl)
  case dmaDrop =>
    split
    · rename_i outside
      exact exec_edit_error taking rfl rfl (by simp only [dropDmaSet, if_pos outside])
    · rename_i index
      split
      · rename_i empty
        exact exec_edit_error taking rfl rfl
          (by simp only [dropDmaSet, if_neg index, Option.isNone_iff_eq_none.1 empty])
      · rename_i there
        obtain ⟨e, he⟩ := Option.ne_none_iff_exists'.1 (mt Option.isNone_iff_eq_none.2 there)
        exact exec_edit_ok taking rfl rfl (by simp only [dropDmaSet, if_neg index, he]; rfl)
  case night =>
    have inRange : nightInRange ⟨w.toNat, n.toNat, g.toNat⟩ = true ↔ ¬ ((23 < w.toNat ∧ w.toNat < 72) ∨ 95 < w.toNat ∨
        n.toNat < 4 ∨ 24 < n.toNat ∨ 16 < g.toNat) := by
      simp only [nightInRange, decide_eq_true_eq]
      omega
    split
    · rename_i outside
      exact exec_edit_error taking rfl rfl (if_neg (mt inRange.1 (not_not.2 outside)))
    · rename_i fits
      exact exec_edit_ok taking rfl rfl (if_pos (inRange.2 fits))

end Sys2Proof.Machine
end

section
/-!
PROOFS. The staging hold and its timer (section 2.4), the installation block by block (section 2.6), and the commit that
makes a set pending or installs it (section 2.5).
-/

namespace Sys2Proof.Machine

variable {s t : State} {p : Port} {f : Frame} {h : Hold} {pd : PendingSet} {night : Nat}

/-! ### The staging hold (R36, R43 to R45) -/

theorem step_of_empty (empty : s.pending = []) : step s = .next (whenPowered secondPasses s) := by
  simp only [step, empty]

/-- A timer that has run out expires, with one STAGING_DROPPED. -/
theorem expireHold_of_some (hold : s.config.hold = some h) : expireHold s =
    (s.setHold none).append .stagingDropped (portCode h.port) (eventNight s) 0 := by
  simp only [expireHold, hold]
  rfl

/-- Settles O4. -/
theorem stagingHoldOpensCountsAndEnds : Obligations.StagingHoldOpensCountsAndEnds := by
  refine ⟨fun s p f editor => ⟨fun taking => ?opens, fun h holder => ?discards⟩, fun s => ⟨fun empty idle => ?quiet,
    fun h on hold => ?timer⟩⟩
  case opens =>
    refine ⟨fun free => ?_, fun h hold port => ?_, fun h hold port => ?_⟩ <;>
      refine exec_of_taking taking rfl trivial (mem_editors editor) ?_ <;>
      simp only [ownerOf, ownEditOpen, State.takeFrame_config]
    · rw [free]
      rfl
    · simp only [hold, if_pos port]
      rfl
    · simp only [hold, if_neg port]
  case discards =>
    refine exec_of_taking holder.1 rfl trivial (mem_editors editor) ?_
    simp only [ownerOf, ownEditDiscard, holder.held]
  case quiet =>
    rw [step_of_empty empty]
    rcases idle with off | none
    · rw [whenPowered_off off]
    · refine congrArg Host.Outcome.next ?_
      unfold whenPowered secondPasses
      rw [none]
      exact ite_self _
  case timer =>
    intro expired
    refine ⟨fun runs empty => ?_, fun runs => ?_, fun out empty => ?_, fun out => ?_⟩
    · rw [step_of_empty empty, whenPowered_on on]
      simp only [secondPasses, hold, if_neg (Nat.one_le_iff_ne_zero.1 runs)]
    · exact exec_not_due .holdTimerExpiry s (.inr fun h' held => by
        rw [hold] at held
        obtain rfl := Option.some.inj held
        exact Nat.one_le_iff_ne_zero.1 runs)
    · rw [step_of_empty empty, whenPowered_on on]
      simp only [secondPasses, hold, if_pos out]
      rw [expireHold_of_some hold]
    · refine congrArg Host.Outcome.next ((whenPowered_on on).trans ?_)
      simp only [expireDue, hold, if_pos out]
      rw [expireHold_of_some hold]

/-! ### What an installation does to the tables (R25, R119 to R121, R143) -/

theorem sameAddress_iff {old new : Tbl MeterEntry} {m : Nat} : sameAddress old new m = true ↔
    (tget old m).map MeterEntry.address = (tget new m).map MeterEntry.address ∧
      ((tget new m).map MeterEntry.address).isSome := by
  unfold sameAddress
  cases tget old m <;> cases tget new m <;> simp

theorem tget_carryMeters (old new : Tbl MeterEntry) (runtime : Tbl MeterRuntime) (m : Nat) :
    tget (carryMeters old new runtime) m = (tget new m).map (fun e =>
      if (tget old m).map MeterEntry.address = some e.address then (tget runtime m).getD ⟨.active, 0⟩
      else ⟨.active, 0⟩) := by
  have carried := tget_map (fun k _ =>
    if sameAddress old new k then (tget runtime k).getD .initial else .initial) new m
  refine carried.trans (Option.map_congr fun e he => ?_)
  have same := sameAddress_iff (old := old) (new := new) (m := m)
  simp only [he, Option.map_some, Option.isSome_some, and_true] at same
  simp only [same]
  rfl

theorem tget_carrySuspensions (old new : Tbl MeterEntry) (l : Tbl Suspension) (m : Nat) :
    tget (carrySuspensions old new l) m = if sameAddress old new m then tget l m else none :=
  tget_filter_key (sameAddress old new) l m

/-- The balance fields of two entries agree (R119). -/
theorem sameBalance_iff {old new : Tbl MeterEntry} {o e : DistrictEntry} : sameBalance old new o e = true ↔
    (addressedTerms old o).Perm (addressedTerms new e) ∧ o.pressurePoint = e.pressurePoint ∧
      (∀ m ∈ e.pressurePoint, addressAt old m = addressAt new m) ∧ o.refPressure = e.refPressure ∧
      o.exponent = e.exponent ∧ o.properties = e.properties ∧ o.perProperty = e.perProperty ∧
      o.nonHousehold = e.nonHousehold := by
  simp only [sameBalance, Bool.and_eq_true, List.isPerm_iff, decide_eq_true_eq]
  refine and_congr_right fun _ => and_congr_right fun point => and_congr_left fun _ => ?_
  rw [point]
  cases e.pressurePoint <;> simp

/-- A runtime whose counts are clamped, by alarm state (R121). -/
theorem clampDistrict_eq (e : DistrictEntry) (r : DistrictRuntime) : clampDistrict e r = match r.alarm with
    | .quiet => r
    | .learning => { r with learnCount := if e.learnNights ≤ r.learnCount then e.learnNights - 1 else r.learnCount }
    | .watch =>
      if r.highCount < e.confirmNights ∧ r.highCount ≠ 0 then r
      else if 2 ≤ e.confirmNights ∧ r.highCount ≠ 0 then { r with highCount := e.confirmNights - 1 }
      else { r with highCount := 0, alarm := .quiet }
    | .leak | .standing =>
      { r with normalCount := if e.clearNights ≤ r.normalCount then e.clearNights - 1 else r.normalCount } := by
  unfold clampDistrict clampCount
  cases alarm : r.alarm with
  | watch =>
    simp only
    by_cases below : r.highCount < e.confirmNights
    · by_cases zero : r.highCount = 0
      · rw [if_neg (Nat.not_le.2 below), if_pos zero, if_neg (fun both => both.2 zero),
          if_neg (fun both => both.2 zero)]
      · rw [if_neg (Nat.not_le.2 below), if_neg zero, if_pos ⟨below, zero⟩, ← alarm]
    · rw [if_pos (Nat.not_lt.1 below)]
      by_cases least : 2 ≤ e.confirmNights
      · rw [if_neg (show e.confirmNights - 1 ≠ 0 by omega),
          if_neg (show ¬ (r.highCount < e.confirmNights ∧ r.highCount ≠ 0) from fun both => below both.1),
          if_pos ⟨least, by omega⟩]
      · rw [if_pos (show e.confirmNights - 1 = 0 by omega),
          if_neg (show ¬ (r.highCount < e.confirmNights ∧ r.highCount ≠ 0) from fun both => below both.1),
          if_neg (fun both => least both.1)]
  | _ => rfl

section Carry

variable {old new : ConfigSet} {runtime : Tbl DistrictRuntime} {d : Nat} {o e : DistrictEntry} {r : DistrictRuntime}

theorem carryDistrict_reset (ho : tget old.districts d = some o) (hr : tget runtime d = some r)
    (other : sameBalance old.meters new.meters o e = false) :
    carryDistrict old new runtime d e = resetDistrict r := by
  simp only [carryDistrict, ho, hr, other, Bool.not_false, if_true]

theorem carryDistrict_same (ho : tget old.districts d = some o) (hr : tget runtime d = some r)
    (same : sameBalance old.meters new.meters o e = true) (judgement : sameJudgement o e = true) :
    carryDistrict old new runtime d e = r := by
  simp only [carryDistrict, ho, hr, same, judgement, Bool.not_true, Bool.false_eq_true, if_false]

theorem carryDistrict_clamped (ho : tget old.districts d = some o) (hr : tget runtime d = some r)
    (same : sameBalance old.meters new.meters o e = true) (judgement : sameJudgement o e = false) :
    carryDistrict old new runtime d e = clampDistrict e r := by
  simp only [carryDistrict, ho, hr, same, judgement, Bool.not_true, Bool.not_false, Bool.false_eq_true, if_false,
    if_true]

theorem carryDistrict_new (ho : tget old.districts d = none) : carryDistrict old new runtime d e = .initial := by
  simp only [carryDistrict, ho]

end Carry

/-! ### The installation (R49) -/

theorem install_config (h : s.config.pending = some pd) : (install night s).config =
    { s.config with active := pd.config, generation := s.config.generation + 1, pending := none } := by
  rw [install_of_some night h, replan_frame]
  rfl

/-- Outside a planned DAY an installation leaves the calendar. -/
theorem install_calendar (h : ∀ n, s.calendar.cycle ≠ .day (some n)) : (install night s).calendar = s.calendar := by
  cases hp : s.config.pending with
  | none => rw [install_of_none night hp]
  | some pd =>
    rw [install_of_some night hp]
    rcases replan_cycle (adoptSet pd night s) with ⟨n, hc, -⟩ | ⟨-, hc⟩
    · exact absurd hc (h n)
    · rw [replan_frame, hc]
      rfl

/-- In DAY an installation plans the same night under the new set (R65; log 23). -/
theorem install_calendar_day (h : s.config.pending = some pd) {n : NightPlan} (hc : s.calendar.cycle = .day (some n)) :
    (install night s).calendar =
      { s.calendar with cycle := .day (planNight pd.config.night s.calendar.rules n.date) } := by
  rw [install_of_some night h]
  have hc' : (adoptSet pd night s).calendar.cycle = .day (some n) := hc
  simp only [replan, hc']
  rfl

/-- Settles O10: block by block, from the tables carried over. -/
theorem installationAdjustsEveryBlock : Obligations.InstallationAdjustsEveryBlock := by
  intro s pd night hp t old new address addressed balance judgement
  have blocks : t = (adoptSet pd night s).setCalendar t.calendar := by
    have eq : t = replan (adoptSet pd night s) := install_of_some night hp
    rw [eq]
    exact (replan_frame _).trans (congrArg _ (congrArg State.calendar (replan_frame _)).symm)
  have kept (o e : DistrictEntry) (d : Nat) (r : DistrictRuntime) (he : tget new.districts d = some e) :
      tget t.districts d = some (carryDistrict old new s.districts d e) := by
    rw [blocks]
    exact (tget_carryDistricts old new s.districts d).trans (by rw [he]; rfl)
  have ring (d : Nat) : tget t.history d =
      if (tget old.districts d).isSome && (tget new.districts d).isSome then tget s.history d else none := by
    rw [blocks]
    exact tget_carryHistory old new s.history d
  refine ⟨install_config hp, by rw [blocks]; rfl, fun m => ?runtime, fun m => ?suspensions, fun d gone => ?gone,
    fun d e he ho => ?added, fun d o e r ho he hr => ?kept, fun n hc => install_calendar_day hp hc,
    install_calendar, by rw [blocks]; rfl, by rw [blocks]; rfl, by rw [blocks]; rfl, by rw [blocks]; rfl⟩
  case runtime =>
    rw [blocks]
    exact tget_carryMeters old.meters new.meters s.intake.runtime m
  case suspensions =>
    rw [blocks]
    refine (tget_carrySuspensions old.meters new.meters s.suspensions m).trans ?_
    simp only [sameAddress_iff]
    rfl
  case gone =>
    refine ⟨?_, by rw [ring, gone]; simp⟩
    rw [blocks]
    exact (tget_carryDistricts old new s.districts d).trans (by rw [gone]; rfl)
  case added =>
    exact ⟨by rw [kept e e d .initial he, carryDistrict_new ho]; rfl, by rw [ring, ho]; rfl⟩
  case kept =>
    have balance_iff : sameBalance old.meters new.meters o e = true ↔ balance o e := sameBalance_iff
    have judgement_iff : sameJudgement o e = true ↔ judgement o e := decide_eq_true_iff
    refine ⟨by rw [ring, ho, he]; rfl, fun other => ?_, fun same judged => ?_, fun same other => ?_⟩
    · rw [kept o e d r he, carryDistrict_reset ho hr (Bool.eq_false_iff.2 (mt balance_iff.1 other))]
      rfl
    · rw [kept o e d r he, carryDistrict_same ho hr (balance_iff.2 same) (judgement_iff.2 judged)]
    · have clamped := (carryDistrict_clamped ho hr (balance_iff.2 same)
        (Bool.eq_false_iff.2 (mt judgement_iff.1 other))).trans (clampDistrict_eq e r)
      exact (kept o e d r he).trans (congrArg some (clamped.trans (by cases r.alarm <;> rfl)))

/-! ### The commit (R47, R48) -/

/-- The set of a hold made pending, and the hold ended (R48). -/
def pendingFrom (h : Hold) (p : Port) (s : State) : State :=
  s.setConfig { s.config with pending := some ⟨h.staging, p⟩, hold := none }

theorem ownEditCommit_invalid {why : Invalid} {i : Nat} (held : heldBy s p = some h)
    (fails : validate h.staging = some (why, i)) : ownEditCommit p [] s =
      (s.setHold (some { h with timer := 300 }), ⟨.invalid, [oct (invalidCode why), oct i]⟩) := by
  simp only [ownEditCommit, held, fails]
  rfl

/-- A set that passes is made pending, installed where the phase allows it, and the boundaries reached fire. -/
theorem ownEditCommit_valid (held : heldBy s p = some h) (passes : validate h.staging = none) :
    ownEditCommit p [] s = (fireDue (installNow (pendingFrom h p s)), ⟨.ok, [octFlag (installPhase s.calendar.cycle)] ++
      be16 (fireDue (installNow (pendingFrom h p s))).config.generation.toNat⟩) := by
  simp only [ownEditCommit, held, passes]
  rfl

theorem fireDue_config (s : State) : (fireDue s).config = s.config := (fireDue_frame s).config

/-- Settles O9: the commit's answer in each phase. -/
theorem commitMakesPendingOrInstalls : Obligations.CommitMakesPendingOrInstalls := by
  intro s p f h lawful taking q
  have answered {u : State} {x : Status} {out : List Octet}
      (answer : ownEditCommit p [] (s.takeFrame p) = (u, ⟨x, out⟩)) :
      exec (.editCommit p) s = .next (replied s p f u x out) :=
    exec_of_taking taking.1 rfl trivial (mem_editors taking.2.1) answer
  refine ⟨fun why i fails => answered (ownEditCommit_invalid taking.held fails), fun passes => ?_⟩
  have commits : ownEditCommit p [] (s.takeFrame p) = (fireDue (installNow q), ⟨.ok,
      [octFlag (installPhase s.calendar.cycle)] ++ be16 (fireDue (installNow q)).config.generation.toNat⟩) :=
    ownEditCommit_valid taking.held passes
  have generation (night : Nat) : (install night q).config.generation = s.config.generation + 1 := by
    rw [install_config (pd := ⟨h.staging, p⟩) rfl]
    rfl
  have nothingDue : NothingDue q.calendar.cycle q.calendar.t := lawful.2.1
  refine ⟨fun n current => ?_, fun halted => ?_,
    fun n day => ⟨fireDue (install (eventNight s) q), fireDue_firesTo _, ?_⟩⟩
  · have waits : installPhase s.calendar.cycle = false := by
      rcases current with hc | hc | hc <;> rw [hc] <;> rfl
    have stays : fireDue (installNow q) = q := by
      have : installNow q = q := if_neg (Bool.eq_false_iff.1 waits)
      rw [this, fireDue_ahead nothingDue]
    rw [stays, waits] at commits
    exact answered commits
  · have night : eventNight q = 0 := by
      show eventNight s = 0
      simp only [eventNight, halted, carriedPlan]
    have phase : installPhase q.calendar.cycle = true := by
      rw [show q.calendar.cycle = _ from halted]
      rfl
    have installs : installNow q = install 0 q := by rw [installNow, if_pos phase, night]
    have cycle : (install 0 q).calendar.cycle = .halted :=
      (congrArg Calendar.cycle (install_calendar fun n hc => by
        rw [show q.calendar.cycle = _ from halted] at hc
        cases hc)).trans halted
    rw [installs, fireDue_of_halted cycle, generation, halted] at commits
    exact answered commits
  · have installs : installNow q = install (eventNight s) q :=
      if_pos (show installPhase q.calendar.cycle = true by rw [show q.calendar.cycle = _ from day]; rfl)
    rw [installs, fireDue_config, generation, day] at commits
    exact answered commits

end Sys2Proof.Machine
end

section
/-!
PROOFS. The table of the commit checks (section 2.5): each check's first failing record, and the checks in their order.
-/

namespace Sys2Proof.Machine

/-! ### Tables in canonical form -/

section Tables

variable {α : Type} {t : Tbl α} {p : Nat × α → Bool}

theorem mem_iff_tget (hw : tableWf t = true) {k : Nat} {v : α} : (k, v) ∈ t ↔ tget t k = some v :=
  ⟨tget_of_mem hw, mem_of_tget⟩

/-- The smallest key whose entry fails, where keys rise. -/
theorem firstFailing_eq_some (hw : tableWf t = true) {fails : Nat → α → Bool} {i : Nat} :
    firstFailing t fails = some i ↔ (∃ v, tget t i = some v ∧ fails i v = true) ∧
      ∀ j, j < i → ¬ ∃ v, tget t j = some v ∧ fails j v = true := by
  have rising := (tableWf_iff t).1 hw
  simp only [firstFailing, Option.map_eq_some_iff, List.find?_eq_some_iff_append, Prod.exists]
  constructor
  · rintro ⟨i, v, ⟨hv, before, after, rfl, passed⟩, rfl⟩
    rw [List.pairwise_append, List.pairwise_cons] at rising
    obtain ⟨-, ⟨later, -⟩, -⟩ := rising
    refine ⟨⟨v, tget_of_mem hw (by simp), hv⟩, ?_⟩
    rintro j hj ⟨w, hw', fails'⟩
    rcases List.mem_append.1 (mem_of_tget hw') with hm | hm
    · have := passed _ hm
      simp [fails'] at this
    · rcases List.mem_cons.1 hm with same | hm
      · exact Nat.ne_of_lt hj (congrArg Prod.fst same)
      · exact Nat.lt_asymm hj (later _ hm)
  · rintro ⟨⟨v, hv, fails'⟩, least⟩
    obtain ⟨before, after, rfl⟩ := List.append_of_mem (mem_of_tget hv)
    refine ⟨i, v, ⟨fails', before, after, rfl, fun x hx => ?_⟩, rfl⟩
    have earlier := (List.pairwise_append.1 rising).2.2 x hx (i, v) List.mem_cons_self
    have passed := least x.1 earlier
    rw [not_exists] at passed
    simpa [tget_of_mem hw (List.mem_append_left _ hx)] using passed x.2

/-- At least two entries of a table pass a test where two of rising keys do. -/
theorem two_le_countP_iff (hw : tableWf t = true) : 2 ≤ t.countP p ↔
    ∃ x ∈ t, ∃ y ∈ t, x.1 < y.1 ∧ p x = true ∧ p y = true := by
  constructor
  · intro two
    rw [List.countP_eq_length_filter] at two
    have rising := ((tableWf_iff t).1 hw).filter p
    match hl : t.filter p, two with
    | x :: y :: rest, _ =>
      rw [hl] at rising
      obtain ⟨hx, px⟩ := List.mem_filter.1 (hl ▸ List.mem_cons_self : x ∈ t.filter p)
      obtain ⟨hy, py⟩ := List.mem_filter.1 (hl ▸ List.mem_cons_of_mem _ List.mem_cons_self : y ∈ t.filter p)
      exact ⟨x, hx, y, hy, (List.pairwise_cons.1 rising).1 y List.mem_cons_self, px, py⟩
  · rintro ⟨x, hx, y, hy, lt, px, py⟩
    exact two_le_countP hx hy (fun same => Nat.ne_of_lt lt (congrArg Prod.fst same)) px py

/-- At least three entries of a table pass a test where three of rising keys do. -/
theorem three_le_countP_iff (hw : tableWf t = true) : 2 < t.countP p ↔
    ∃ x ∈ t, ∃ y ∈ t, ∃ z ∈ t, x.1 < y.1 ∧ y.1 < z.1 ∧ p x = true ∧ p y = true ∧ p z = true := by
  rw [List.countP_eq_length_filter]
  constructor
  · intro three
    have rising := ((tableWf_iff t).1 hw).filter p
    match hl : t.filter p, three with
    | x :: y :: z :: rest, _ =>
      rw [hl] at rising
      obtain ⟨first, rising⟩ := List.pairwise_cons.1 rising
      have second := (List.pairwise_cons.1 rising).1
      have pass (w : Nat × α) (hw : w ∈ x :: y :: z :: rest) : w ∈ t ∧ p w = true := List.mem_filter.1 (hl ▸ hw)
      obtain ⟨hx, px⟩ := pass x (by simp)
      obtain ⟨hy, py⟩ := pass y (by simp)
      obtain ⟨hz, pz⟩ := pass z (by simp)
      exact ⟨x, hx, y, hy, z, hz, first y (by simp), second z (by simp), px, py, pz⟩
  · rintro ⟨x, hx, y, hy, z, hz, xy, yz, px, py, pz⟩
    have distinct : [x, y, z].Nodup := by
      have hxy : x ≠ y := fun same => Nat.ne_of_lt xy (congrArg Prod.fst same)
      have hyz : y ≠ z := fun same => Nat.ne_of_lt yz (congrArg Prod.fst same)
      have hxz : x ≠ z := fun same => Nat.ne_of_lt (xy.trans yz) (congrArg Prod.fst same)
      simp [hxy, hyz, hxz]
    refine (List.subperm_of_subset distinct fun w hw => ?_).length_le
    simp only [List.mem_cons, List.not_mem_nil, or_false] at hw
    rcases hw with rfl | rfl | rfl
    · exact List.mem_filter.2 ⟨hx, px⟩
    · exact List.mem_filter.2 ⟨hy, py⟩
    · exact List.mem_filter.2 ⟨hz, pz⟩

end Tables

/-! ### The six checks in the words of the table (R47) -/

section Checks

variable {c : ConfigSet} {i : Nat} {e : DistrictEntry}

theorem clashes_iff (hw : tableWf c.meters = true) {m : MeterEntry} : clashes c i m = true ↔
    ∃ j e', j < i ∧ tget c.meters j = some e' ∧ e'.address = m.address := by
  simp only [clashes, List.any_eq_true, decide_eq_true_eq, Prod.exists, mem_iff_tget hw]
  exact exists_congr fun j => exists_congr fun e' => by tauto

theorem namesEmpty_iff : namesEmpty c e = true ↔ (∃ x ∈ e.terms, tget c.meters x.meter = none) ∨
    ∃ m ∈ e.pressurePoint, tget c.meters m = none := by
  simp only [namesEmpty, Bool.or_eq_true, List.any_eq_true, Option.any_eq_true, Option.isNone_iff_eq_none,
    Option.mem_def]

theorem holdsPressure_iff {m : Nat} : holdsPressure c m = true ↔
    ∃ e, tget c.meters m = some e ∧ e.kind = .pressure := by
  unfold holdsPressure
  cases tget c.meters m with
  | none => simp
  | some e => cases h : e.kind <;> simp [h]

theorem holdsFlow_iff {m : Nat} : holdsFlow c m = true ↔ ∃ e w, tget c.meters m = some e ∧ e.kind = .flow w := by
  unfold holdsFlow
  cases tget c.meters m with
  | none => simp
  | some e => cases h : e.kind <;> simp [h]

theorem wrongKind_iff : wrongKind c e = true ↔
    (∃ x ∈ e.terms, ∃ m, tget c.meters x.meter = some m ∧ m.kind = .pressure) ∨
      ∃ k ∈ e.pressurePoint, ∃ m w, tget c.meters k = some m ∧ m.kind = .flow w := by
  simp only [wrongKind, Bool.or_eq_true, List.any_eq_true, Option.any_eq_true, holdsPressure_iff, holdsFlow_iff,
    Option.mem_def]

theorem badTerms_iff : badTerms e = true ↔
    (∀ x ∈ e.terms, x.sign ≠ .inlet) ∨ e.terms.length < 1 ∨ 8 < e.terms.length := by
  simp [badTerms]

/-- The districts one of whose terms satisfies a test, in rising order. -/
theorem two_le_districtsWith (hw : tableWf c.districts = true) {test : Term → Bool} : 2 ≤ districtsWith c test ↔
    ∃ a b, a < b ∧ (∃ e, tget c.districts a = some e ∧ ∃ x ∈ e.terms, test x = true) ∧
      ∃ e, tget c.districts b = some e ∧ ∃ x ∈ e.terms, test x = true := by
  simp only [districtsWith, two_le_countP_iff hw, List.any_eq_true, Prod.exists, mem_iff_tget hw]
  constructor
  · rintro ⟨a, e, he, b, e', he', lt, hx, hy⟩
    exact ⟨a, b, lt, ⟨e, he, hx⟩, e', he', hy⟩
  · rintro ⟨a, b, lt, ⟨e, he, hx⟩, e', he', hy⟩
    exact ⟨a, e, he, b, e', he', lt, hx, hy⟩

theorem three_le_districtsWith (hw : tableWf c.districts = true) {test : Term → Bool} : 2 < districtsWith c test ↔
    ∃ a b d, a < b ∧ b < d ∧ (∃ e, tget c.districts a = some e ∧ ∃ x ∈ e.terms, test x = true) ∧
      (∃ e, tget c.districts b = some e ∧ ∃ x ∈ e.terms, test x = true) ∧
      ∃ e, tget c.districts d = some e ∧ ∃ x ∈ e.terms, test x = true := by
  simp only [districtsWith, three_le_countP_iff hw, List.any_eq_true, Prod.exists, mem_iff_tget hw]
  constructor
  · rintro ⟨a, e, he, b, e', he', d, e'', he'', lt, lt', hx, hy, hz⟩
    exact ⟨a, b, d, lt, lt', ⟨e, he, hx⟩, ⟨e', he', hy⟩, e'', he'', hz⟩
  · rintro ⟨a, b, d, lt, lt', ⟨e, he, hx⟩, ⟨e', he', hy⟩, e'', he'', hz⟩
    exact ⟨a, e, he, b, e', he', d, e'', he'', lt, lt', hx, hy, hz⟩

theorem overused_iff (hw : tableWf c.districts = true) : overused c i = true ↔
    (∃ d e, tget c.districts d = some e ∧ 2 ≤ (e.terms.map Term.meter).count i) ∨
      (∃ a b d, a < b ∧ b < d ∧ NamesAt c a i ∧ NamesAt c b i ∧ NamesAt c d i) ∨
      ∃ a b sign, a < b ∧ TermAt c a i sign ∧ TermAt c b i sign := by
  have twice (e : DistrictEntry) :
      e.terms.countP (fun y => decide (y.meter = i)) = (e.terms.map Term.meter).count i := by
    rw [List.count, List.countP_map]
    rfl
  have signed (sign : Sign) (a : Nat) : (∃ e, tget c.districts a = some e ∧ ∃ x ∈ e.terms, x = ⟨i, sign⟩) ↔
      TermAt c a i sign := by
    simp only [TermAt, exists_eq_right]
  simp only [overused, Bool.or_eq_true, decide_eq_true_eq, List.any_eq_true, Prod.exists, mem_iff_tget hw, twice,
    two_le_districtsWith hw, three_le_districtsWith hw, signed, or_assoc]
  refine or_congr Iff.rfl (or_congr Iff.rfl ⟨?_, ?_⟩)
  · rintro (⟨a, b, lt, ha, hb⟩ | ⟨a, b, lt, ha, hb⟩)
    · exact ⟨a, b, .inlet, lt, ha, hb⟩
    · exact ⟨a, b, .outlet, lt, ha, hb⟩
  · rintro ⟨a, b, sign, lt, ha, hb⟩
    cases sign with
    | inlet => exact .inl ⟨a, b, lt, ha, hb⟩
    | outlet => exact .inr ⟨a, b, lt, ha, hb⟩

end Checks

/-! ### The checks in their order -/

section Order

variable {c : ConfigSet} {why : Invalid} {i : Nat}

/-- The first record that fails a check (R47). -/
def failing (c : ConfigSet) (why : Invalid) : Option Nat :=
  match why with
  | .addressClash => firstFailing c.meters (clashes c)
  | .unknownMeter => firstFailing c.districts (fun _ e => namesEmpty c e)
  | .kind => firstFailing c.districts (fun _ e => wrongKind c e)
  | .terms => firstFailing c.districts (fun _ e => badTerms e)
  | .overuse => firstFailing c.meters (fun m _ => overused c m)
  | .pool => if Config.poolSlots < slotsUsed c then some 0 else none

/-- A check reports a record exactly when that record fails it and none of smaller index does. -/
theorem failing_eq_some (hc : c.Canonical) :
    failing c why = some i ↔ Rejects c why i ∧ ∀ j, j < i → ¬ Rejects c why j := by
  obtain ⟨meters, districts⟩ := hc
  cases why with
  | addressClash =>
    simp only [failing, firstFailing_eq_some meters, clashes_iff meters]
    rfl
  | unknownMeter =>
    simp only [failing, firstFailing_eq_some districts, namesEmpty_iff]
    rfl
  | kind =>
    simp only [failing, firstFailing_eq_some districts, wrongKind_iff]
    rfl
  | terms =>
    simp only [failing, firstFailing_eq_some districts, badTerms_iff]
    rfl
  | overuse =>
    simp only [failing, firstFailing_eq_some meters, overused_iff districts,
      exists_and_right, ← Option.isSome_iff_exists]
    rfl
  | pool =>
    show (if 384 < slotsUsed c then some 0 else none) = some i ↔
      (i = 0 ∧ 384 < slotsUsed c) ∧ ∀ j, j < i → ¬ (j = 0 ∧ 384 < slotsUsed c)
    split
    · rename_i full
      simp only [Option.some.injEq, full, and_true]
      exact ⟨fun zero => ⟨zero.symm, fun j hj => by omega⟩, fun zero => zero.1.symm⟩
    · rename_i room
      simp [room]

theorem failing_eq_none (hc : c.Canonical) : failing c why = none ↔ ∀ i, ¬ Rejects c why i := by
  classical
  constructor
  · intro none i rejects
    have least := (failing_eq_some hc).2 ⟨Nat.find_spec ⟨i, rejects⟩, fun j hj => Nat.find_min ⟨i, rejects⟩ hj⟩
    rw [none] at least
    cases least
  · exact fun passes => Option.eq_none_iff_forall_ne_some.2 fun i fails => passes i ((failing_eq_some hc).1 fails).1

theorem invalidCode_injective {x y : Invalid} (h : invalidCode x = invalidCode y) : x = y := by
  cases x <;> cases y <;> first | rfl | cases h

/-- A check reports a record, and no earlier check does. -/
def ReportsFirst (c : ConfigSet) (why : Invalid) (i : Nat) : Prop :=
  failing c why = some i ∧ ∀ why', invalidCode why' < invalidCode why → failing c why' = none

theorem validate_spec (c : ConfigSet) : (∃ why i, validate c = some (why, i) ∧ ReportsFirst c why i) ∨
    (validate c = none ∧ ∀ why, failing c why = none) := by
  have first {why : Invalid} {i : Nat} (reports : failing c why = some i)
      (earlier : ∀ why', invalidCode why' < invalidCode why → failing c why' = none) :
      (∃ why' j, some (why, i) = some (why', j) ∧ ReportsFirst c why' j) ∨
        ((some (why, i) : Option (Invalid × Nat)) = none ∧ ∀ why, failing c why = none) :=
    .inl ⟨why, i, rfl, reports, earlier⟩
  unfold validate
  split
  · exact first (why := .addressClash) ‹_› fun why' lt => by cases why' <;> simp_all [invalidCode]
  rename_i h1
  change failing c .addressClash = none at h1
  split
  · exact first (why := .unknownMeter) ‹_› fun why' lt => by cases why' <;> simp_all [invalidCode]
  rename_i h2
  change failing c .unknownMeter = none at h2
  split
  · exact first (why := .kind) ‹_› fun why' lt => by cases why' <;> simp_all [invalidCode]
  rename_i h3
  change failing c .kind = none at h3
  split
  · exact first (why := .terms) ‹_› fun why' lt => by cases why' <;> simp_all [invalidCode]
  rename_i h4
  change failing c .terms = none at h4
  split
  · exact first (why := .overuse) ‹_› fun why' lt => by cases why' <;> simp_all [invalidCode]
  rename_i h5
  change failing c .overuse = none at h5
  split
  · rename_i full
    exact first (why := .pool) (if_pos full) fun why' lt => by cases why' <;> simp_all [invalidCode]
  · rename_i room
    have h6 : failing c .pool = none := if_neg room
    exact .inr ⟨rfl, fun why => by cases why <;> assumption⟩

theorem validate_eq_some : validate c = some (why, i) ↔ ReportsFirst c why i := by
  rcases validate_spec c with ⟨why', j, hv, first⟩ | ⟨hv, none⟩
  · rw [hv, Option.some.injEq, Prod.mk.injEq]
    constructor
    · rintro ⟨rfl, rfl⟩
      exact first
    · intro also
      have same : why' = why := by
        refine invalidCode_injective (Nat.le_antisymm (Nat.not_lt.1 fun lt => ?_) (Nat.not_lt.1 fun lt => ?_))
        · have := first.2 why lt
          rw [also.1] at this
          cases this
        · have := also.2 why' lt
          rw [first.1] at this
          cases this
      subst same
      exact ⟨rfl, Option.some.inj (first.1.symm.trans also.1)⟩
  · rw [hv]
    refine iff_of_false nofun fun reports => ?_
    have := none why
    rw [reports.1] at this
    cases this

theorem validate_eq_none : validate c = none ↔ ∀ why, failing c why = none := by
  rcases validate_spec c with ⟨why', j, hv, first⟩ | ⟨hv, none⟩
  · rw [hv]
    refine iff_of_false nofun fun none => ?_
    have := none why'
    rw [first.1] at this
    cases this
  · exact iff_of_true hv none

/-- There are two signs. -/
theorem Sign.eq_of_ne_of_ne {x y z : Sign} (hxy : x ≠ y) (hyz : y ≠ z) : x = z := by
  cases x <;> cases y <;> cases z <;> first | rfl | exact absurd rfl hxy | exact absurd rfl hyz

/-- A set under the law of the active set fails no check. -/
theorem ConfigSet.Lawful.not_rejects (h : c.Lawful) (why : Invalid) (i : Nat) : ¬ Rejects c why i := by
  obtain ⟨address, districts, signs, pool⟩ := h
  cases why with
  | addressClash =>
    rintro ⟨e, he, j, e', lt, he', same⟩
    exact Nat.ne_of_lt lt (address _ (mem_of_tget he') _ (mem_of_tget he) same)
  | unknownMeter =>
    rintro ⟨e, he, ⟨x, hx, none⟩ | ⟨m, hm, none⟩⟩
    · obtain ⟨m, w, hm, -⟩ := (districts _ (mem_of_tget he)).1 x hx
      rw [none] at hm
      cases hm
    · obtain ⟨k, hk, -⟩ := (districts _ (mem_of_tget he)).2.1 m hm
      rw [none] at hk
      cases hk
  | kind =>
    rintro ⟨e, he, ⟨x, hx, m, hm, pressure⟩ | ⟨k, hk, m, w, hm, flow⟩⟩
    · obtain ⟨m', w, hm', flow⟩ := (districts _ (mem_of_tget he)).1 x hx
      obtain rfl := Option.some.inj (hm.symm.trans hm')
      rw [pressure] at flow
      cases flow
    · obtain ⟨m', hm', pressure⟩ := (districts _ (mem_of_tget he)).2.1 k hk
      obtain rfl := Option.some.inj (hm.symm.trans hm')
      rw [pressure] at flow
      cases flow
  | terms =>
    rintro ⟨e, he, noInlet | few | many⟩
    · obtain ⟨y, hy, inlet⟩ := (districts _ (mem_of_tget he)).2.2.2.2.1
      exact noInlet y hy inlet
    · exact Nat.not_le.2 few (districts _ (mem_of_tget he)).2.2.1
    · exact Nat.not_le.2 many (districts _ (mem_of_tget he)).2.2.2.1
  | overuse =>
    have opposite {a b : Nat} (lt : a < b) {ea eb : DistrictEntry} (ha : tget c.districts a = some ea)
        (hb : tget c.districts b = some eb) {x y : Term} (hx : x ∈ ea.terms) (hy : y ∈ eb.terms)
        (same : x.meter = y.meter) : x.sign ≠ y.sign :=
      signs _ (mem_of_tget ha) _ (mem_of_tget hb) (Nat.ne_of_lt lt) x hx y hy same
    rintro ⟨-, ⟨d, e, he, twice⟩ | ⟨a, b, d, ab, bd, ⟨ea, ha, x, hx, xm⟩, ⟨eb, hb, y, hy, ym⟩, ed, hd, z, hz, zm⟩ |
      ⟨a, b, sign, ab, ⟨ea, ha, hx⟩, eb, hb, hy⟩⟩
    · have once := List.nodup_iff_count_le_one.1 (districts _ (mem_of_tget he)).2.2.2.2.2 i
      exact Nat.not_lt.2 once twice
    · have hxy := opposite ab ha hb hx hy (xm.trans ym.symm)
      have hyz := opposite bd hb hd hy hz (ym.trans zm.symm)
      have hxz := opposite (ab.trans bd) ha hd hx hz (xm.trans zm.symm)
      exact hxz (Sign.eq_of_ne_of_ne hxy hyz)
    · exact opposite ab ha hb hx hy rfl rfl
  | pool => exact fun full => Nat.not_le.2 full.2 pool

end Order

/-- Settles O8: the checks in their order, each in the words of its row. -/
theorem commitReportsFirstFailure : Obligations.CommitReportsFirstFailure := by
  intro c hc
  refine ⟨fun why i => ?_, fun passes => (passes_of_validate passes).lawful, fun lawful => ?_⟩
  · rw [validate_eq_some, ReportsFirst, failing_eq_some hc, and_assoc]
    refine and_congr_right fun _ => and_congr_right fun _ => ⟨fun none why' j lt => ?_, fun passes why' lt => ?_⟩
    · exact (failing_eq_none hc).1 (none why' lt) j
    · exact (failing_eq_none hc).2 fun j => passes why' j lt
  · exact validate_eq_none.2 fun why => (failing_eq_none hc).2 (lawful.not_rejects why)

end Sys2Proof.Machine
end

section
/-!
PROOFS. One value of a reading batch (section 1.3): how it is judged, what it does to its meter, its slot and the burst
watch, and the batch of one value that carries it.
-/

namespace Sys2Proof.Machine

variable {s t : State} {p : Port} {f : Frame} {m x v k : Nat} {e : MeterEntry} {n : NightPlan} {vs : List Nat}
  {payload : List Octet}

/-! ### The judging of one value (R11 to R17) -/

theorem judgeValue_gap : judgeValue s m e x 0xFFFF = .gap := if_pos rfl

theorem judgeValue_future (given : v ≠ 0xFFFF) (ahead : s.calendar.t < 900 * (x + 1)) :
    judgeValue s m e x v = .future := by
  rw [judgeValue, if_neg given, if_pos (show s.calendar.t < Config.intervalSeconds * (x + 1) from ahead)]

theorem inWindow_iff : inWindow n x = true ↔ n.window ≤ x ∧ x < n.window + n.length := decide_eq_true_iff

/-- Outside the current window a value is LATE or OUTSIDE. -/
theorem judgeValue_outside (given : v ≠ 0xFFFF) (ended : 900 * (x + 1) ≤ s.calendar.t)
    (outside : ∀ n, (s.calendar.cycle = .opened n ∨ s.calendar.cycle = .grace n) →
      ¬ (n.window ≤ x ∧ x < n.window + n.length)) :
    judgeValue s m e x v = lateOrOutside s.calendar.closed x := by
  rw [judgeValue, if_neg given, if_neg (show ¬ s.calendar.t < Config.intervalSeconds * (x + 1) from Nat.not_lt.2 ended)]
  split
  · rfl
  · rename_i n hn
    have := mt inWindow_iff.1 (outside n (filingPlan_eq_some.1 hn))
    simp only [this, Bool.not_false, if_true]

/-- Inside the current window a value is judged by its meter's mark, its maximum and its slot. -/
theorem judgeValue_inside (given : v ≠ 0xFFFF) (ended : 900 * (x + 1) ≤ s.calendar.t)
    (current : s.calendar.cycle = .opened n ∨ s.calendar.cycle = .grace n) (first : n.window ≤ x)
    (last : x < n.window + n.length) : judgeValue s m e x v =
      if m ∈ s.intake.suspended then .suspended
      else if e.maximum < v then .range
      else (fileValue (slotAt s.intake.store m (x - n.window)) v).2 := by
  rw [judgeValue, if_neg given, if_neg (show ¬ s.calendar.t < Config.intervalSeconds * (x + 1) from Nat.not_lt.2 ended),
    filingPlan_eq_some.2 current]
  simp only [inWindow_iff.2 ⟨first, last⟩, Bool.not_true, Bool.false_eq_true, if_false, hasIdx_iff]

theorem lateOrOutside_late {closed : Option ClosedWindow}
    (h : ∃ w ∈ closed, w.window ≤ x ∧ x < w.window + w.length) : lateOrOutside closed x = .late := by
  obtain ⟨w, rfl, inside⟩ := h
  exact if_pos inside

theorem lateOrOutside_outside {closed : Option ClosedWindow}
    (h : ¬ ∃ w ∈ closed, w.window ≤ x ∧ x < w.window + w.length) : lateOrOutside closed x = .outside := by
  cases closed with
  | none => rfl
  | some w => exact if_neg fun inside => h ⟨w, rfl, inside⟩

/-! ### A batch at Reading Intake (R9) -/

/-- A batch that passes the checks has its values judged and filed in order. -/
theorem ownReadings_pass {a1 a0 d1 d0 first c : Octet} {values : List Octet} (count : 1 ≤ c.toNat)
    (count' : c.toNat ≤ 24) (length : values.length = 2 * c.toNat) (date : u16 d1 d0 ≤ 36524)
    (interval : first.toNat ≤ 95) (valid : s.calendar.valid = true)
    (found : meterAt s.config.active.meters (u16 a1 a0) = some (m, e)) :
    let r := takeValues p m e (u16 d1 d0 * 96 + first.toNat) (words16 values) s
    ownReadings p (a1 :: a0 :: d1 :: d0 :: first :: c :: values) s =
      (r.1, ⟨.ok, countFates r.2 ++ layCurrentNight s.calendar.cycle⟩) := by
  have format : ¬ (c.toNat = 0 ∨ 24 < c.toNat ∨ values.length ≠ 2 * c.toNat) := by omega
  have range : ¬ (Config.lastDay < u16 d1 d0 ∨ 95 < first.toNat) := by simp only [Config.lastDay]; omega
  simp only [ownReadings, if_neg format, if_neg range, valid, Bool.not_true, Bool.false_eq_true, if_false, found]

theorem mem_feeders (h : p ≠ .c) : p ∈ [Port.a, Port.b] := by
  cases p with
  | a => exact List.mem_cons_self
  | b => exact List.mem_cons_of_mem _ List.mem_cons_self
  | c => exact absurd rfl h

/-- A batch of one value is answered by that value's outcome. -/
theorem exec_oneReading (h : OneReading s p f m e x v) {fate : Fate}
    (judged : judgeValue (s.takeFrame p) m e x v = fate) : exec (.readings p) s =
      .next (replied s p f (applyFate p m e x v fate (s.takeFrame p)) .ok
        (countFates [fate] ++ layCurrentNight s.calendar.cycle)) := by
  obtain ⟨a1, a0, d1, d0, first, v1, v0, taking, feeder, date, interval, valid, found, rfl, rfl⟩ := h
  refine exec_of_taking taking rfl trivial (mem_feeders feeder) ?_
  have passed := ownReadings_pass (s := s.takeFrame p) (p := p) (c := 1) (values := [v1, v0])
    (by decide) (by decide) rfl
    date interval valid found
  rw [← judged]
  exact passed

theorem applyFate_unheard {fate : Fate} (h : fate.hears = false) : applyFate p m e x v fate s = s := by
  rw [applyFate, h]
  rfl

/-- Settles O12: such a value is judged by its interval, and does nothing. -/
theorem unfiledReadingsChangeNothing : Obligations.UnfiledReadingsChangeNothing := by
  intro s p f m e x v reading night current within closed ended answers
  have answered {fate : Fate} (judged : judgeValue (s.takeFrame p) m e x v = fate) (quiet : fate.hears = false) :
      answers (countFates [fate]) := by
    have := exec_oneReading reading judged
    rwa [applyFate_unheard quiet] at this
  refine ⟨?_, fun given ahead => ?_, fun given past outside late => ?_, fun given past outside other => ?_,
    fun n given past hn inside suspended => ?_⟩
  · rintro rfl
    exact answered judgeValue_gap rfl
  · exact answered (judgeValue_future given (Nat.not_le.1 ahead)) rfl
  · exact answered ((judgeValue_outside given past outside).trans (lateOrOutside_late late)) rfl
  · exact answered ((judgeValue_outside given past outside).trans (lateOrOutside_outside other)) rfl
  · exact answered ((judgeValue_inside given past hn inside.1 inside.2).trans (if_pos suspended)) rfl

/-! ### A value that is filed (R16, R17, R19, R20) -/

theorem hear_store (p : Port) (m : Nat) (s : State) : (hear p m s).intake.store = s.intake.store := by
  unfold hear
  dsimp only
  split
  · rfl
  · rw [State.append_intake]
    rfl

theorem hear_rangeReported (p : Port) (m : Nat) (s : State) :
    (hear p m s).intake.rangeReported = s.intake.rangeReported := by
  unfold hear
  dsimp only
  split
  · rfl
  · rw [State.append_intake]
    rfl

theorem applyFate_range : applyFate p m e x v .range s = reportRange m v (hear p m s) := rfl

theorem applyFate_accepted (current : s.calendar.cycle = .opened n ∨ s.calendar.cycle = .grace n) :
    applyFate p m e x v .accepted s =
      offerSlot n m (x - n.window) e (fileSlot m (x - n.window) v (hear p m s)) := by
  simp only [applyFate, Fate.hears, if_true, filingPlan_eq_some.2 current]

theorem applyFate_filed {fate : Fate} (current : s.calendar.cycle = .opened n ∨ s.calendar.cycle = .grace n)
    (again : fate = .duplicate ∨ fate = .conflicted) :
    applyFate p m e x v fate s = fileSlot m (x - n.window) v (hear p m s) := by
  rcases again with rfl | rfl <;> simp only [applyFate, Fate.hears, if_true, filingPlan_eq_some.2 current]

/-- A value that leaves its slot as it was changes nothing in a canonical store. -/
theorem fileSlot_same (hw : tableWf s.intake.store = true) (slot : slotAt s.intake.store m k ≠ .empty)
    (same : (fileValue (slotAt s.intake.store m k) v).1 = slotAt s.intake.store m k) : fileSlot m k v s = s := by
  have listed : tget s.intake.store (slotKey m k) = some (slotAt s.intake.store m k) := by
    unfold slotAt at slot ⊢
    cases h : tget s.intake.store (slotKey m k) with
    | none => exact absurd (by rw [h]; rfl) slot
    | some w => rfl
  rw [fileSlot, same, putSlot, tput_of_tget hw listed]
  rfl

theorem eventNight_of_current (current : s.calendar.cycle = .opened n ∨ s.calendar.cycle = .grace n) :
    eventNight s = n.date := by
  rcases current with hc | hc <;> simp only [eventNight, hc, carriedPlan]

theorem layCurrentNight_of_current (current : s.calendar.cycle = .opened n ∨ s.calendar.cycle = .grace n) :
    layCurrentNight s.calendar.cycle = [1] ++ be16 n.date := by
  rcases current with hc | hc <;> simp only [layCurrentNight, hc, currentPlan]

/-- A meter that is heard carries its mark, and a SILENT one becomes ACTIVE with METER_HEARD (R19). -/
theorem hear_eq (p : Port) (m : Nat) (s : State) : hear p m s =
    let marked := s.setIntake { s.intake with heard := insertIdx s.intake.heard m }
    match (tget s.intake.runtime m).getD ⟨.active, 0⟩ with
    | ⟨.active, _⟩ => marked
    | ⟨.silent, c⟩ =>
      (marked.setIntake { marked.intake with runtime := tput marked.intake.runtime m ⟨.active, c⟩ }).append
        .meterHeard m (eventNight s) (portCode p) := by
  unfold hear runtimeOf MeterRuntime.initial
  generalize (tget s.intake.runtime m).getD ⟨.active, 0⟩ = r
  obtain ⟨condition, nights⟩ := r
  cases condition <;> rfl

/-- Settles O13: the outcome by the meter's maximum and the slot, then what that outcome does. -/
theorem filedReadings : Obligations.FiledReadings := by
  intro s p f m e x v n reading canonical current first last given ended unsuspended k r marked heard put answers
  have rising : tableWf s.intake.store = true := ((storeWf_iff _).1 canonical).1
  have heard_eq : hear p m r = heard := by
    rw [hear_eq, show eventNight r = n.date from eventNight_of_current current]
    rfl
  have store : heard.intake.store = s.intake.store := heard_eq ▸ hear_store p m r
  have reported : heard.intake.rangeReported = s.intake.rangeReported := heard_eq ▸ hear_rangeReported p m r
  have night : eventNight heard = n.date := by
    rw [eventNight, ← heard_eq, (hear_frame p m r).calendar]
    exact eventNight_of_current current
  have judged : judgeValue r m e x v = if e.maximum < v then .range else (fileValue (slotAt s.intake.store m k) v).2 :=
    (judgeValue_inside given ended current first last).trans (if_neg unsuspended)
  have answered {fate : Fate} {t : State} (judge : judgeValue r m e x v = fate)
      (effect : applyFate p m e x v fate r = t) : answers t (countFates [fate]) := by
    have := exec_oneReading reading judge
    rwa [show applyFate p m e x v fate (s.takeFrame p) = t from effect, layCurrentNight_of_current current] at this
  have ranged (above : e.maximum < v) : judgeValue r m e x v = .range := judged.trans (if_pos above)
  have filed {fate : Fate} (within : v ≤ e.maximum) (file : (fileValue (slotAt s.intake.store m k) v).2 = fate) :
      judgeValue r m e x v = fate := (judged.trans (if_neg (Nat.not_lt.2 within))).trans file
  have again {fate : Fate} (h : fate = .duplicate ∨ fate = .conflicted) :
      applyFate p m e x v fate r = fileSlot m k v heard := by
    rw [applyFate_filed (s := r) current h, heard_eq]
  have puts : fileSlot m k v heard = put (fileValue (slotAt s.intake.store m k) v).1 := by
    rw [← store]
    rfl
  have unchanged (slot : slotAt s.intake.store m k ≠ .empty)
      (same : (fileValue (slotAt s.intake.store m k) v).1 = slotAt s.intake.store m k) : fileSlot m k v heard = heard :=
    fileSlot_same (store ▸ rising) (store ▸ slot) (by rw [store]; exact same)
  refine ⟨fun above fresh => answered (ranged above) ?_, fun above reportedBefore => answered (ranged above) ?_,
    fun within empty => ?_, fun within slot => ?_, fun w within slot other => ?_, fun within slot => ?_⟩
  · rw [applyFate_range, heard_eq, reportRange, if_neg (by rw [hasIdx_iff, reported]; exact fresh), night]
  · rw [applyFate_range, heard_eq, reportRange, if_pos (by rw [hasIdx_iff, reported]; exact reportedBefore)]
  · have judge : judgeValue r m e x v = .accepted := filed within (by rw [empty]; rfl)
    have effect : applyFate p m e x v .accepted r = offerSlot n m k e (put (.filled v)) := by
      rw [applyFate_accepted (s := r) current, heard_eq, puts, empty]
      rfl
    refine ⟨fun pressure => answered judge (effect.trans ?_), fun w flow => answered judge (effect.trans ?_)⟩
    · simp only [offerSlot, pressure]
    · simp only [offerSlot, flow]
  · refine answered (fate := .duplicate) (filed within (by rw [slot, fileValue, if_pos rfl])) ?_
    rw [again (.inl rfl), unchanged (by rw [slot]; nofun) (by rw [slot, fileValue, if_pos rfl])]
  · refine answered (fate := .conflicted) (filed within (by rw [slot, fileValue, if_neg other])) ?_
    rw [again (.inr rfl), puts, slot, fileValue, if_neg other]
  · refine answered (fate := .conflicted) (filed within (by rw [slot]; rfl)) ?_
    rw [again (.inr rfl), unchanged (by rw [slot]; nofun) (by rw [slot]; rfl)]

end Sys2Proof.Machine
end

section
/-!
PROOFS. Whole reading batches (section 1.3): the checks, the nine counts, a batch as its values one after
another, and the order in which two batches are taken.
-/

namespace Sys2Proof.Machine

variable {s t u : State} {p : Port} {f : Frame} {m x v k : Nat} {e : MeterEntry} {n : NightPlan} {vs : List Nat}
  {payload : List Octet} {fs : List Fate} {rest : List Frame}

/-! ### The nine counts (R21) -/

theorem countFates_length (fs : List Fate) : (countFates fs).length = 9 := rfl

theorem takeValues_length (p : Port) (m : Nat) (e : MeterEntry) (x : Nat) (vs : List Nat) (s : State) :
    (takeValues p m e x vs s).2.length = vs.length := by
  induction vs generalizing x s with
  | nil => rfl
  | cons v rest ih => exact congrArg (· + 1) (ih _ _)

/-- Every value has one of the nine outcomes. -/
theorem sum_counts (fs : List Fate) :
    fs.count .accepted + fs.count .duplicate + fs.count .conflicted + fs.count .gap + fs.count .future +
      fs.count .late + fs.count .outside + fs.count .suspended + fs.count .range = fs.length := by
  induction fs with
  | nil => rfl
  | cons f rest ih =>
    rw [List.length_cons, ← ih]
    cases f <;> simp <;> omega

theorem countFates_sum (h : fs.length ≤ 255) : ((countFates fs).map BitVec.toNat).sum = fs.length := by
  have bound (a : Fate) : (oct (fs.count a)).toNat = fs.count a := oct_toNat (List.count_le_length.trans h)
  have sum := sum_counts fs
  simp only [countFates, List.map_cons, List.map_nil, List.sum_cons, List.sum_nil, bound]
  omega

/-- The counts of a batch are those of its first value and those of the others, added up. -/
theorem countFates_cons (f : Fate) (fs : List Fate) :
    countFates (f :: fs) = List.zipWith (· + ·) (countFates [f]) (countFates fs) := by
  have add (a : Fate) : oct ((f :: fs).count a) = oct ([f].count a) + oct (fs.count a) := by
    rw [← List.singleton_append, List.count_append, oct, BitVec.ofNat_add]
    rfl
  simp only [countFates, List.map_cons, List.map_nil, List.zipWith_cons_cons, List.zipWith_nil_right, add]

/-! ### The line of the ports while values are filed -/

/-- What the taking of a frame looks at, at every port, is the same in the two states. -/
def LineKept (s t : State) : Prop := ∀ q, (t.port q).queue = (s.port q).queue ∧
  (t.port q).transmitter = (s.port q).transmitter ∧ (t.port q).change = (s.port q).change

theorem LineKept.refl (s : State) : LineKept s s := fun _ => ⟨rfl, rfl, rfl⟩

theorem LineKept.trans (h : LineKept s t) (h' : LineKept t u) : LineKept s u := fun q =>
  ⟨(h' q).1.trans (h q).1, (h' q).2.1.trans (h q).2.1, (h' q).2.2.trans (h q).2.2⟩

theorem LineKept.append (s : State) (kind : EventKind) (subject night : Nat) (detail : Int) :
    LineKept s (s.append kind subject night detail) := fun _ => ⟨by simp, by simp, by simp⟩

theorem hear_line (p : Port) (m : Nat) (s : State) : LineKept s (hear p m s) := by
  unfold hear
  dsimp only
  split
  · exact .refl s
  · exact .append (s.setIntake _) _ _ _ _

theorem applyFate_line (p : Port) (m : Nat) (e : MeterEntry) (x v : Nat) (f : Fate) (s : State) :
    LineKept s (applyFate p m e x v f s) := by
  have heard := hear_line p m s
  unfold applyFate
  split
  · dsimp only
    split
    · unfold reportRange
      split
      · exact heard
      · exact heard.trans (.append (State.setIntake _ _) _ _ _ _)
    · unfold offerSlot
      split
      · rw [takeOffer_frame]
        exact heard
      · exact heard
    · exact heard
    · exact heard
  · exact .refl s

theorem takeValues_line (p : Port) (m : Nat) (e : MeterEntry) (x : Nat) (vs : List Nat) (s : State) :
    LineKept s (takeValues p m e x vs s).1 := by
  induction vs generalizing x s with
  | nil => exact .refl s
  | cons v rest ih => exact (applyFate_line p m e x v _ s).trans (ih _ _)

/-! ### A batch laid out -/

/-- The payload of a batch for the meter of an address, from absolute interval x on. -/
def layBatch (a1 a0 : Octet) (x : Nat) (vs : List Nat) : List Octet :=
  [a1, a0] ++ be16 (x / 96) ++ [oct (x % 96), oct vs.length] ++ vs.flatMap be16

theorem ownReadings_layBatch {a1 a0 : Octet} (date : x / 96 ≤ 36524) (count : 1 ≤ vs.length) (count' : vs.length ≤ 24)
    (values : ∀ w ∈ vs, w ≤ 65535) (valid : s.calendar.valid = true)
    (found : meterAt s.config.active.meters (u16 a1 a0) = some (m, e)) :
    ownReadings p (layBatch a1 a0 x vs) s = ((takeValues p m e x vs s).1,
      ⟨.ok, countFates (takeValues p m e x vs s).2 ++ layCurrentNight s.calendar.cycle⟩) := by
  have hdate : u16 (oct (x / 96 / 256)) (oct (x / 96)) = x / 96 := u16_be16 (by omega)
  have hfirst : (oct (x % 96)).toNat = x % 96 := oct_toNat (by omega)
  have hcount : (oct vs.length).toNat = vs.length := oct_toNat (by omega)
  have passed := ownReadings_pass (s := s) (p := p) (a1 := a1) (a0 := a0) (m := m) (e := e)
    (d1 := oct (x / 96 / 256)) (d0 := oct (x / 96)) (first := oct (x % 96)) (c := oct vs.length)
    (values := vs.flatMap be16) (by omega) (by omega) (by rw [flatMap_be16_length, hcount]) (by omega) (by omega) valid
    found
  rw [hdate, hfirst, words16_flatMap values, show x / 96 * 96 + x % 96 = x by omega] at passed
  exact passed

/-! ### A frame put at the head of the queue -/

theorem PortState.adoptDue_of_not_due {y : PortState} (h : ¬ (y.change = .ready ∧ y.transmitter = none)) :
    y.adoptDue = y := if_neg h

theorem PortState.adoptDue_not_due (y : PortState) :
    ¬ (y.adoptDue.change = .ready ∧ y.adoptDue.transmitter = none) := by
  unfold PortState.adoptDue
  split
  · simp [PortState.applySettings]
  · assumption

theorem PortState.adoptDue_queued (y : PortState) (l : List Frame) :
    ({ y with queue := l } : PortState).adoptDue = { y.adoptDue with queue := l } := by
  unfold PortState.adoptDue
  split <;> rfl

/-- A frame put before the others that wait is taken, and leaves the others. -/
theorem takeFrame_queued (u : State) (p : Port) (g : Frame) (rest : List Frame) :
    (u.setPort p { u.port p with queue := g :: rest }).takeFrame p =
      u.setPort p { (u.port p).adoptDue with queue := rest } := by
  simp only [State.takeFrame, State.port_setPort_self, State.setPort_setPort, PortState.adoptDue_queued, List.tail_cons]

theorem takeFrame_of_ready (h : ReadyToTake s p f rest) :
    s.takeFrame p = s.setPort p { (s.port p).adoptDue with queue := rest } := by
  rw [State.takeFrame, h.2.2.1]
  rfl

theorem ReadyToTake.queued (h : ReadyToTake s p f rest) {u : State} {g : Frame} (addr : g.addr = f.addr)
    (on : u.retention.powered = true) (free : (u.port p).transmitter = none) :
    ReadyToTake (u.setPort p { u.port p with queue := g :: rest }) p g rest :=
  ⟨on, by rw [State.port_setPort_self]; exact free, by rw [State.port_setPort_self], by rw [addr]; exact h.2.2.2⟩

/-! ### Values of intervals that have not ended -/

theorem takeValues_ahead (h : s.calendar.t < 900 * (x + 1)) : takeValues p m e x vs s =
    (s, vs.map fun v => if v = 65535 then .gap else .future) := by
  induction vs generalizing x with
  | nil => rfl
  | cons v rest ih =>
    have judged : judgeValue s m e x v = if v = 65535 then .gap else .future := by
      split
      · rename_i gap
        rw [gap]
        exact judgeValue_gap
      · exact judgeValue_future ‹_› h
    have quiet : (if v = 65535 then Fate.gap else .future).hears = false := by split <;> rfl
    rw [takeValues, judged, applyFate_unheard quiet, ih (by omega)]
    rfl

theorem countFates_ahead (vs : List Nat) : countFates (vs.map fun v => if v = 65535 then .gap else .future) =
    [0, 0, 0, oct (vs.count 65535), oct (vs.length - vs.count 65535), 0, 0, 0, 0] := by
  have gaps : (vs.map fun v => if v = 65535 then Fate.gap else .future).count .gap = vs.count 65535 := by
    rw [List.count, List.countP_map, List.count]
    refine List.countP_congr fun v _ => ?_
    by_cases h : v = 65535 <;> simp [h]
  have never (a : Fate) (ha : a ≠ .gap) (ha' : a ≠ .future) :
      (vs.map fun v => if v = 65535 then Fate.gap else .future).count a = 0 := by
    refine List.count_eq_zero_of_not_mem fun hm => ?_
    obtain ⟨v, -, hv⟩ := List.mem_map.1 hm
    split at hv
    · exact ha hv.symm
    · exact ha' hv.symm
  have total := sum_counts (vs.map fun v => if v = 65535 then Fate.gap else .future)
  rw [gaps, never .accepted nofun nofun, never .duplicate nofun nofun, never .conflicted nofun nofun,
    never .late nofun nofun, never .outside nofun nofun, never .suspended nofun nofun, never .range nofun nofun,
    List.length_map] at total
  have futures : (vs.map fun v => if v = 65535 then Fate.gap else .future).count .future =
      vs.length - vs.count 65535 := by omega
  simp only [countFates, List.map_cons, List.map_nil, gaps, futures, never .accepted nofun nofun,
    never .duplicate nofun nofun, never .conflicted nofun nofun, never .late nofun nofun, never .outside nofun nofun,
    never .suspended nofun nofun, never .range nofun nofun]
  rfl

/-! ### The checks in order (R9) -/

section Checks

variable {a1 a0 d1 d0 first c : Octet} {values : List Octet}
  (format : ¬ (c.toNat = 0 ∨ 24 < c.toNat ∨ values.length ≠ 2 * c.toNat))
include format

theorem ownReadings_range (range : 36524 < u16 d1 d0 ∨ 95 < first.toNat) :
    ownReadings p (a1 :: a0 :: d1 :: d0 :: first :: c :: values) s = (s, refusal .range) := by
  rw [ownReadings, if_neg format, if_pos (show Config.lastDay < u16 d1 d0 ∨ 95 < first.toNat from range)]

variable (inRange : ¬ (36524 < u16 d1 d0 ∨ 95 < first.toNat))
include inRange

theorem ownReadings_noTime (invalid : s.calendar.valid = false) :
    ownReadings p (a1 :: a0 :: d1 :: d0 :: first :: c :: values) s = (s, refusal .noTime) := by
  rw [ownReadings, if_neg format, if_neg (show ¬ (Config.lastDay < u16 d1 d0 ∨ 95 < first.toNat) from inRange), invalid]
  exact if_pos rfl

theorem ownReadings_unknownMeter (valid : s.calendar.valid = true)
    (absent : meterAt s.config.active.meters (u16 a1 a0) = none) :
    ownReadings p (a1 :: a0 :: d1 :: d0 :: first :: c :: values) s = (s, refusal .unknownMeter) := by
  rw [ownReadings, if_neg format, if_neg (show ¬ (Config.lastDay < u16 d1 d0 ∨ 95 < first.toNat) from inRange), valid]
  simp only [absent, Bool.not_true, Bool.false_eq_true, if_false]

theorem ownReadings_counts (valid : s.calendar.valid = true)
    (there : meterAt s.config.active.meters (u16 a1 a0) ≠ none) : ∃ t fs, fs.length = c.toNat ∧
      ownReadings p (a1 :: a0 :: d1 :: d0 :: first :: c :: values) s =
        (t, ⟨.ok, countFates fs ++ layCurrentNight s.calendar.cycle⟩) := by
  obtain ⟨⟨m, e⟩, found⟩ := Option.ne_none_iff_exists'.1 there
  refine ⟨_, _, ?_, ownReadings_pass (by omega) (by omega) (by omega) (by omega) (by omega) valid found⟩
  rw [takeValues_length]
  have words := congrArg List.length (flatMap_words16 (os := values) (by omega))
  rw [flatMap_be16_length] at words
  omega

end Checks

/-- Six octets come before the values of a batch. -/
theorem exists_six_le (h : 6 ≤ payload.length) :
    ∃ a1 a0 d1 d0 first c values, payload = a1 :: a0 :: d1 :: d0 :: first :: c :: values := by
  match payload, h with
  | a1 :: a0 :: d1 :: d0 :: first :: c :: values, _ => exact ⟨a1, a0, d1, d0, first, c, values, rfl⟩

/-- Settles O11: the checks in order, then the values one after another. -/
theorem readingsBatchChecks : Obligations.ReadingsBatchChecks := by
  constructor
  · intro s p f payload taking feeder o c
    have answered {t : State} {x : Status} {out : List Octet}
        (answer : ownReadings p payload (s.takeFrame p) = (t, ⟨x, out⟩)) :
        exec (.readings p) s = .next (replied s p f t x out) :=
      exec_of_taking taking rfl trivial (mem_feeders feeder) answer
    split
    · rename_i wrong
      refine answered (ownReadings_format fun fits => ?_)
      obtain ⟨enough, least, most, whole⟩ : 6 ≤ payload.length ∧ 1 ≤ c ∧ c ≤ 24 ∧ payload.length = 6 + 2 * c := fits
      omega
    rename_i fits
    obtain ⟨a1, a0, d1, d0, first, count, values, rfl⟩ := exists_six_le (payload := payload) (by omega)
    have format : ¬ (count.toNat = 0 ∨ 24 < count.toNat ∨ values.length ≠ 2 * count.toNat) := by
      have hc : c = count.toNat := rfl
      have length : (a1 :: a0 :: d1 :: d0 :: first :: count :: values).length = values.length + 6 := rfl
      omega
    split
    · rename_i range
      exact answered (ownReadings_range format range)
    rename_i inRange
    split
    · rename_i invalid
      exact answered (ownReadings_noTime format inRange invalid)
    rename_i valid
    have valid : s.calendar.valid = true := Bool.not_eq_false _ ▸ valid
    split
    · rename_i absent
      exact answered (ownReadings_unknownMeter format inRange valid (meterAt_eq_none_iff.2 absent))
    · rename_i there
      obtain ⟨t, fs, length, answer⟩ := ownReadings_counts (s := s.takeFrame p) (p := p) (a1 := a1)
          (a0 := a0) format inRange valid
        (mt meterAt_eq_none_iff.1 there)
      exact ⟨t, countFates fs, answered answer, countFates_length fs,
        (countFates_sum (by omega)).trans length⟩
  intro s p f g1 g2 rest a1 a0 x v vs batch queued night ready feeder kind payload date others count values valid there
  obtain ⟨y, hy, address⟩ := there
  obtain ⟨⟨m, e⟩, found⟩ := Option.ne_none_iff_exists'.1
    (mt meterAt_eq_none_iff.1 fun absent => absent y hy address)
  have nonempty : 1 ≤ vs.length := List.length_pos_of_ne_nil others
  have whole : exec (.readings p) s = .next (replied s p f (takeValues p m e x (v :: vs) (s.takeFrame p)).1 .ok
      (countFates (takeValues p m e x (v :: vs) (s.takeFrame p)).2 ++ night)) :=
    exec_of_taking (kind := 0x01) ⟨⟨rest, ready⟩, kind, payload⟩ rfl trivial (mem_feeders feeder)
      (ownReadings_layBatch (s := s.takeFrame p) date (Nat.le_add_left 1 _) (Nat.succ_le_succ count) values valid found)
  refine ⟨fun later hg1 hg2 => ?_, fun past range => ?_⟩
  · let r1 := (takeValues p m e x [v] (s.takeFrame p)).1
    let r2 := (takeValues p m e (x + 1) vs r1).1
    have frame : FilingFrame (s.takeFrame p) r1 := takeValues_frame p m e x [v] _
    obtain ⟨queue, transmitter, change⟩ := takeValues_line p m e x [v] (s.takeFrame p) p
    have taken1 : (queued s g1).takeFrame p = s.takeFrame p :=
      (takeFrame_queued s p g1 rest).trans (takeFrame_of_ready ready).symm
    have port : (s.takeFrame p).port p = { (s.port p).adoptDue with queue := rest } := by
      rw [takeFrame_of_ready ready, State.port_setPort_self]
    have adopted : (r1.port p).adoptDue = r1.port p := by
      refine PortState.adoptDue_of_not_due ?_
      rw [change, transmitter, port]
      exact (s.port p).adoptDue_not_due
    have taken2 : (queued r1 g2).takeFrame p = r1 := by
      have waiting : (r1.port p).queue = rest := by rw [queue, port]
      rw [takeFrame_queued, adopted, ← waiting]
      exact r1.setPort_port p
    have free : (r1.port p).transmitter = none := by
      rw [transmitter, port]
      exact (s.port p).adoptDue_transmitter.trans ready.2.1
    have on : r1.retention.powered = true := (congrArg Retention.powered frame.retention).trans ready.1
    have first : exec (.readings p) (queued s g1) = .next (replied (queued s g1) p g1 r1 .ok
        (countFates (takeValues p m e x [v] (s.takeFrame p)).2 ++ night)) := by
      refine exec_of_taking (kind := 0x01) ⟨⟨rest, ready.queued (by rw [hg1]) ready.1 ready.2.1⟩,
        by rw [hg1]; exact kind, by rw [hg1]⟩ rfl trivial (mem_feeders feeder) ?_
      rw [taken1]
      have one : ∀ w ∈ [v], w ≤ 65535 := fun w hw =>
        values w (by rw [List.mem_singleton.1 hw]; exact List.mem_cons_self)
      exact ownReadings_layBatch (s := s.takeFrame p) (vs := [v]) date le_rfl (Nat.le_add_left 1 23) one valid found
    have second : exec (.readings p) (queued r1 g2) = .next (replied (queued r1 g2) p g2 r2 .ok
        (countFates (takeValues p m e (x + 1) vs r1).2 ++ night)) := by
      refine exec_of_taking (kind := 0x01) ⟨⟨rest, ready.queued (by rw [hg2]) on free⟩, by rw [hg2]; exact kind,
        by rw [hg2]⟩ rfl trivial (mem_feeders feeder) ?_
      rw [taken2]
      have answer := ownReadings_layBatch (s := r1) (p := p) (a1 := a1) (a0 := a0) later nonempty (by omega)
        (fun w hw => values w (List.mem_cons_of_mem _ hw)) ((congrArg Calendar.valid frame.calendar).trans valid)
        (by rw [frame.config]; exact found)
      rwa [frame.calendar] at answer
    exact ⟨r1, r2, _, _, _, first, second, whole, countFates_length _, countFates_length _, countFates_cons _ _⟩
  · have ahead : (s.takeFrame p).calendar.t < 900 * (x + 1) := by
      show s.calendar.t < _
      omega
    rw [takeValues_ahead ahead, countFates_ahead] at whole
    exact whole

end Sys2Proof.Machine
end

section
/-!
PROOFS. The Interval Store after two waiting batches (section 1.3): a batch files its values slot by slot, in
slots that do not depend on the store, and two filings commute.
-/

namespace Sys2Proof.Machine

variable {s t u : State} {p : Port} {f g : Frame} {m x v k : Nat} {e : MeterEntry} {vs : List Nat}
  {payload : List Octet}
  {rest : List Frame} {store : Tbl Slot}

/-! ### Filing by key (R17) -/

/-- A value filed in the slot of a key. -/
def fileKey (store : Tbl Slot) (a : Nat × Nat) : Tbl Slot :=
  tput store a.1 (fileValue ((tget store a.1).getD .empty) a.2).1

theorem fileSlot_store (m k v : Nat) (s : State) :
    (fileSlot m k v s).intake.store = fileKey s.intake.store (slotKey m k, v) := rfl

theorem fileKey_wf (hw : tableWf store = true) (a : Nat × Nat) : tableWf (fileKey store a) = true :=
  tableWf_tput hw _ _

/-- Two values filed in one slot leave it alike in either order. -/
theorem fileValue_comm (slot : Slot) (v w : Nat) :
    (fileValue (fileValue slot v).1 w).1 = (fileValue (fileValue slot w).1 v).1 := by
  cases slot with
  | empty =>
    by_cases h : v = w
    · rw [h]
    · simp [fileValue, h, Ne.symm h]
  | filled u => by_cases h : u = v <;> by_cases h' : u = w <;> simp [fileValue, h, h'] <;> simp_all
  | conflict => rfl
  | estimated u => rfl

/-- Two filings in a canonical store leave it alike in either order. -/
theorem fileKey_comm (hw : tableWf store = true) (a b : Nat × Nat) :
    fileKey (fileKey store a) b = fileKey (fileKey store b) a := by
  obtain ⟨ka, v⟩ := a
  obtain ⟨kb, w⟩ := b
  by_cases same : ka = kb
  · subst same
    simp only [fileKey, tget_tput_self, tput_tput store hw, Option.getD_some, fileValue_comm]
  · simp only [fileKey, tget_tput_ne _ _ _ _ same, tget_tput_ne _ _ _ _ (Ne.symm same), tput_comm hw same]

theorem foldl_fileKey_wf (hw : tableWf store = true) (l : List (Nat × Nat)) :
    tableWf (l.foldl fileKey store) = true := by
  induction l generalizing store with
  | nil => exact hw
  | cons a rest ih => exact ih (fileKey_wf hw a)

theorem foldl_fileKey_fileKey (hw : tableWf store = true) (l : List (Nat × Nat)) (a : Nat × Nat) :
    l.foldl fileKey (fileKey store a) = fileKey (l.foldl fileKey store) a := by
  induction l generalizing store with
  | nil => rfl
  | cons b rest ih => rw [List.foldl_cons, fileKey_comm hw, ih (fileKey_wf hw b), List.foldl_cons]

/-- Two lists of filings leave a canonical store alike in either order. -/
theorem foldl_fileKey_comm (hw : tableWf store = true) (l l' : List (Nat × Nat)) :
    l'.foldl fileKey (l.foldl fileKey store) = l.foldl fileKey (l'.foldl fileKey store) := by
  induction l generalizing store with
  | nil => rfl
  | cons a rest ih => rw [List.foldl_cons, ih (fileKey_wf hw a), foldl_fileKey_fileKey hw, List.foldl_cons]

/-! ### Where the values of a batch are filed -/

/-- The key of the slot in which a value is filed, if it is. -/
def filedAt (s : State) (m : Nat) (e : MeterEntry) (x v : Nat) : Option Nat :=
  if v = 65535 ∨ s.calendar.t < 900 * (x + 1) then none
  else (filingPlan s.calendar.cycle).bind fun p =>
    if inWindow p x ∧ m ∉ s.intake.suspended ∧ v ≤ e.maximum then some (slotKey m (x - p.window)) else none

/-- The filings of a batch of one meter from absolute interval x on. -/
def filings (s : State) (m : Nat) (e : MeterEntry) (x : Nat) : List Nat → List (Nat × Nat)
  | [] => []
  | v :: rest => (filedAt s m e x v).toList.map (fun k => (k, v)) ++ filings s m e (x + 1) rest

theorem filings_congr (calendar : t.calendar = s.calendar) (suspended : t.intake.suspended = s.intake.suspended) :
    filings t m e x vs = filings s m e x vs := by
  induction vs generalizing x with
  | nil => rfl
  | cons v rest ih => simp only [filings, filedAt, calendar, suspended, ih]

theorem hear_suspended (p : Port) (m : Nat) (s : State) : (hear p m s).intake.suspended = s.intake.suspended := by
  unfold hear
  dsimp only
  split
  · rfl
  · rw [State.append_intake]
    rfl

theorem offerSlot_intake (p : NightPlan) (m k : Nat) (e : MeterEntry) (s : State) :
    (offerSlot p m k e s).intake = s.intake := by
  unfold offerSlot
  split
  · rw [takeOffer_frame]
    rfl
  · rfl

theorem reportRange_kept (m v : Nat) (s : State) : (reportRange m v s).intake.suspended = s.intake.suspended ∧
    (reportRange m v s).intake.store = s.intake.store := by
  unfold reportRange
  split
  · exact ⟨rfl, rfl⟩
  · rw [State.append_intake]
    exact ⟨rfl, rfl⟩

theorem applyFate_suspended (p : Port) (m : Nat) (e : MeterEntry) (x v : Nat) (f : Fate) (s : State) :
    (applyFate p m e x v f s).intake.suspended = s.intake.suspended := by
  unfold applyFate
  split
  · dsimp only
    split
    · rw [(reportRange_kept _ _ _).1, hear_suspended]
    · rw [offerSlot_intake]
      exact hear_suspended p m s
    · exact hear_suspended p m s
    · exact hear_suspended p m s
  · rfl

theorem fileValue_fate (slot : Slot) (v : Nat) : (fileValue slot v).2 = .accepted ∨
    (fileValue slot v).2 = .duplicate ∨ (fileValue slot v).2 = .conflicted := by
  unfold fileValue
  split
  · exact .inl rfl
  · split
    · exact .inr (.inl rfl)
    · exact .inr (.inr rfl)
  · exact .inr (.inr rfl)
  · exact .inr (.inr rfl)

theorem filedAt_ended (given : v ≠ 65535) (ended : 900 * (x + 1) ≤ s.calendar.t) : filedAt s m e x v =
    (filingPlan s.calendar.cycle).bind fun p =>
      if inWindow p x ∧ m ∉ s.intake.suspended ∧ v ≤ e.maximum then some (slotKey m (x - p.window)) else none :=
  if_neg (not_or.2 ⟨given, Nat.not_lt.2 ended⟩)

/-- A value that is judged is filed in its slot, or leaves the store. -/
theorem applyFate_store (p : Port) (m : Nat) (e : MeterEntry) (x v : Nat) (s : State) :
    (applyFate p m e x v (judgeValue s m e x v) s).intake.store =
      ((filedAt s m e x v).toList.map (fun k => (k, v))).foldl fileKey s.intake.store := by
  have unheard {fate : Fate} (judged : judgeValue s m e x v = fate) (quiet : fate.hears = false)
      (none : filedAt s m e x v = none) : (applyFate p m e x v (judgeValue s m e x v) s).intake.store =
        ((filedAt s m e x v).toList.map (fun k => (k, v))).foldl fileKey s.intake.store := by
    rw [judged, applyFate_unheard quiet, none]
    rfl
  by_cases gap : v = 65535
  · exact unheard (by subst gap; exact judgeValue_gap) rfl (if_pos (.inl gap))
  by_cases ahead : s.calendar.t < 900 * (x + 1)
  · exact unheard (judgeValue_future gap ahead) rfl (if_pos (.inr ahead))
  have ended := Nat.not_lt.1 ahead
  have filed := filedAt_ended (m := m) (e := e) gap ended
  by_cases inside : ∃ n, InWindow s n ∧ n.window ≤ x ∧ x < n.window + n.length
  · obtain ⟨n, current, first, last⟩ := inside
    have judged := judgeValue_inside (m := m) (e := e) gap ended current first last
    rw [filingPlan_eq_some.2 current, Option.bind_some] at filed
    by_cases suspended : m ∈ s.intake.suspended
    · exact unheard (judged.trans (if_pos suspended)) rfl (filed.trans (if_neg fun h => h.2.1 suspended))
    rw [if_neg suspended] at judged
    by_cases above : e.maximum < v
    · rw [judged.trans (if_pos above), filed.trans (if_neg fun h => Nat.not_lt.2 h.2.2 above), applyFate_range,
        (reportRange_kept _ _ _).2, hear_store]
      rfl
    rw [if_neg above] at judged
    rw [filed.trans (if_pos ⟨inWindow_iff.2 ⟨first, last⟩, suspended, Nat.not_lt.1 above⟩), judged]
    have store : (fileSlot m (x - n.window) v (hear p m s)).intake.store =
        fileKey s.intake.store (slotKey m (x - n.window), v) := by rw [fileSlot_store, hear_store]
    rcases fileValue_fate (slotAt s.intake.store m (x - n.window)) v with h | h
    · rw [h, applyFate_accepted current, offerSlot_intake, store]
      rfl
    · rw [applyFate_filed current h, store]
      rfl
  · have outside : ∀ n, InWindow s n → ¬ (n.window ≤ x ∧ x < n.window + n.length) :=
      fun n hn within => inside ⟨n, hn, within⟩
    have none : filedAt s m e x v = none := by
      rw [filed, Option.bind_eq_none_iff]
      exact fun n hn => if_neg fun h => outside n (filingPlan_eq_some.1 hn) (inWindow_iff.1 h.1)
    have judged := judgeValue_outside (m := m) (e := e) gap ended outside
    unfold lateOrOutside at judged
    split at judged
    · exact unheard judged rfl none
    · split at judged
      · exact unheard judged rfl none
      · exact unheard judged rfl none

theorem takeValues_store (p : Port) (m : Nat) (e : MeterEntry) (x : Nat) (vs : List Nat) (s : State) :
    (takeValues p m e x vs s).1.intake.store = (filings s m e x vs).foldl fileKey s.intake.store := by
  induction vs generalizing x s with
  | nil => rfl
  | cons v rest ih =>
    refine (ih (x + 1) _).trans ?_
    rw [filings, List.foldl_append, applyFate_store,
      filings_congr (applyFate_frame p m e x v _ s).calendar (applyFate_suspended p m e x v _ s)]

theorem takeValues_suspended (p : Port) (m : Nat) (e : MeterEntry) (x : Nat) (vs : List Nat) (s : State) :
    (takeValues p m e x vs s).1.intake.suspended = s.intake.suspended := by
  induction vs generalizing x s with
  | nil => rfl
  | cons v rest ih => exact (ih (x + 1) _).trans (applyFate_suspended p m e x v _ s)

/-! ### Two batches -/

/-- What a batch does is nothing, or its values one after another, whatever the ports and the store hold. -/
theorem ownReadings_state (s : State) (payload : List Octet) :
    (∀ p u, u.calendar = s.calendar → u.config = s.config → (ownReadings p payload u).1 = u) ∨
    ∃ m e x vs, ∀ p u, u.calendar = s.calendar → u.config = s.config →
      (ownReadings p payload u).1 = (takeValues p m e x vs u).1 := by
  by_cases fits : LengthFits 0x01 payload
  case neg => exact .inl fun p u _ _ => congrArg Prod.fst (ownReadings_format fits)
  obtain ⟨enough, least, most, length⟩ : 6 ≤ payload.length ∧ 1 ≤ (payload.getD 5 0).toNat ∧
    (payload.getD 5 0).toNat ≤ 24 ∧ payload.length = 6 + 2 * (payload.getD 5 0).toNat := fits
  obtain ⟨a1, a0, d1, d0, first, count, values, rfl⟩ := exists_six_le enough
  simp only [List.getD_cons_succ, List.getD_cons_zero, List.length_cons] at least most length
  have format : ¬ (count.toNat = 0 ∨ 24 < count.toNat ∨ values.length ≠ 2 * count.toNat) := by omega
  by_cases range : 36524 < u16 d1 d0 ∨ 95 < first.toNat
  · exact .inl fun p u _ _ => congrArg Prod.fst (ownReadings_range format range)
  cases valid : s.calendar.valid with
  | false => exact .inl fun p u hc _ => congrArg Prod.fst (ownReadings_noTime format range (hc ▸ valid))
  | true =>
    cases found : meterAt s.config.active.meters (u16 a1 a0) with
    | none =>
      exact .inl fun p u hc hf =>
        congrArg Prod.fst (ownReadings_unknownMeter format range (hc ▸ valid) (hf ▸ found))
    | some place =>
      exact .inr ⟨place.1, place.2, _, _, fun p u hc hf =>
        congrArg Prod.fst (ownReadings_pass least most (by omega) (by omega) (by omega) (hc ▸ valid) (hf ▸ found))⟩

/-- A batch files a list of values in every state that agrees with s in the calendar, the configuration and the
suspended marks, and it changes none of them, nor what waits at the ports. -/
def FilesAs (s : State) (payload : List Octet) (ops : List (Nat × Nat)) : Prop :=
  ∀ p u, u.calendar = s.calendar → u.config = s.config → u.intake.suspended = s.intake.suspended →
    (ownReadings p payload u).1.intake.store = ops.foldl fileKey u.intake.store ∧
    FilingFrame u (ownReadings p payload u).1 ∧ LineKept u (ownReadings p payload u).1 ∧
    (ownReadings p payload u).1.intake.suspended = u.intake.suspended

theorem exists_filesAs (s : State) (payload : List Octet) : ∃ ops, FilesAs s payload ops := by
  rcases ownReadings_state s payload with same | ⟨m, e, x, vs, values⟩
  · refine ⟨[], fun p u hc hf _ => ?_⟩
    rw [same p u hc hf]
    exact ⟨rfl, .refl u, .refl u, rfl⟩
  · refine ⟨filings s m e x vs, fun p u hc hf hs => ?_⟩
    rw [values p u hc hf]
    exact ⟨by rw [takeValues_store, filings_congr hc hs], takeValues_frame p m e x vs u, takeValues_line p m e x vs u,
      takeValues_suspended p m e x vs u⟩

theorem exec_readings (ready : ReadyToTake s p f rest) (kind : f.kind = 0x01) (feeder : p ≠ .c) :
    exec (.readings p) s = .next (replied s p f (ownReadings p f.payload (s.takeFrame p)).1
      (ownReadings p f.payload (s.takeFrame p)).2.status (ownReadings p f.payload (s.takeFrame p)).2.payload) :=
  exec_of_taking (kind := 0x01) ⟨⟨rest, ready⟩, kind, rfl⟩ rfl trivial (mem_feeders feeder) rfl

/-- A batch taken at one port leaves what waits at another, which is then filed as it would have been. -/
theorem readings_then {q : Port} {restG : List Frame} {ops opsG : List (Nat × Nat)} (ne : q ≠ p)
    (ready : ReadyToTake s p f rest) (readyG : ReadyToTake s q g restG) (kind : f.kind = 0x01) (kindG : g.kind = 0x01)
    (feeder : p ≠ .c) (feederG : q ≠ .c) (files : FilesAs s f.payload ops) (filesG : FilesAs s g.payload opsG)
    (first : exec (.readings p) s = .next t) (second : exec (.readings q) t = .next u) :
    u.intake.store = opsG.foldl fileKey (ops.foldl fileKey s.intake.store) := by
  obtain ⟨store, frame, line, suspended⟩ := files p (s.takeFrame p) rfl rfl rfl
  rw [exec_readings ready kind feeder] at first
  generalize ownReadings p f.payload (s.takeFrame p) = r at first store frame line suspended
  obtain rfl := Host.Outcome.next.inj first
  have other : (replied s p f r.1 r.2.status r.2.payload).port q = r.1.port q :=
    State.port_setPort_ne _ _ _ _ ne
  have waits : ReadyToTake (replied s p f r.1 r.2.status r.2.payload) q g restG := by
    obtain ⟨on, free, queue, addr⟩ := readyG
    obtain ⟨queueKept, transmitterKept, -⟩ := line q
    rw [State.takeFrame_port_ne ne] at queueKept transmitterKept
    exact ⟨(congrArg Retention.powered frame.retention).trans on, by rw [other, transmitterKept, free],
      by rw [other, queueKept, queue], addr⟩
  rw [exec_readings waits kindG feederG] at second
  obtain rfl := Host.Outcome.next.inj second
  have filed := (filesG q ((replied s p f r.1 r.2.status r.2.payload).takeFrame q) frame.calendar frame.config
    suspended).1
  exact filed.trans (congrArg (opsG.foldl fileKey) store)

/-- Settles O14: both orders file the same values, and two filings commute. -/
theorem filingOrderLeavesOneStore : Obligations.FilingOrderLeavesOneStore := by
  intro s f g restA restB s1 s2 t1 t2 canonical readyA readyB kindF kindG first second first' second'
  obtain ⟨ops, files⟩ := exists_filesAs s f.payload
  obtain ⟨opsG, filesG⟩ := exists_filesAs s g.payload
  have rising : tableWf s.intake.store = true := by
    obtain ⟨-, -, -, -, store, -⟩ := canonical
    exact ((storeWf_iff _).1 store).1
  rw [readings_then (by decide) readyA readyB kindF kindG (by decide) (by decide) files filesG first second,
    readings_then (by decide) readyB readyA kindG kindF (by decide) (by decide) filesG files first' second',
    foldl_fileKey_comm rising]

end Sys2Proof.Machine
end

section
/-!
PROOFS. TIME_SET and the daylight-saving item (sections 3.1 to 3.6): the step of a VALID calendar, the entry at a first
setting, the days and the plan of a night.
-/

namespace Sys2Proof.Machine

variable {s t u : State} {p : Port} {f : Frame} {payload : List Octet} {c : CivilTime} {t' : Nat}

/-! ### TIME_SET (R55 to R57, R72 to R75) -/

theorem civilInRange_iff : civilInRange c = true ↔ 2000 ≤ c.year ∧ c.year ≤ 2099 ∧ 1 ≤ c.month ∧ c.month ≤ 12 ∧
    1 ≤ c.day ∧ c.day ≤ monthLength c.year c.month ∧ c.hour ≤ 23 ∧ c.minute ≤ 59 ∧ c.second ≤ 59 :=
  decide_eq_true_iff

theorem isJump_iff (size : Int) : isJump size = true ↔ ¬ (-60 ≤ size ∧ size ≤ 60) := by
  unfold isJump Config.trimSeconds
  rw [decide_eq_true_iff]
  omega

/-- A trim moves t alone (R56). -/
theorem stepCalendar_of_trim {c : Calendar} (h : -60 ≤ (t' : Int) - (c.t : Int) ∧ (t' : Int) - (c.t : Int) ≤ 60) :
    stepCalendar c t' = { c with t := t' } :=
  if_neg fun jump => (isJump_iff _).1 jump h

/-- A jump marks the current night and moves or clears the horizon (R56, R74). -/
theorem stepCalendar_of_jump {c : Calendar} {marked : Bool} (marks : jumpMarks c = marked)
    (h : ¬ (-60 ≤ (t' : Int) - (c.t : Int) ∧ (t' : Int) - (c.t : Int) ≤ 60)) :
    stepCalendar c t' = { c with
      t := t', clockStepped := marked, horizon := if 0 < (t' : Int) - (c.t : Int) then some t' else none } :=
  marks ▸ if_pos ((isJump_iff _).2 h)

theorem exec_timeSet {kind : Octet} (taking : Taking s .b f kind payload) (hk : kind = 0x02) {x : Status}
    {out : List Octet} (answer : ownTimeSet .b payload (s.takeFrame .b) = (t, ⟨x, out⟩)) :
    exec (.timeSet .b) s = .next (replied s .b f t x out) := by
  subst hk
  exact exec_of_taking taking rfl trivial List.mem_cons_self answer

/-- Settles O15: a trim moves t alone, a jump marks the night and moves the horizon too. -/
theorem timeSetStepsTheCalendar : Obligations.TimeSetStepsTheCalendar := by
  intro s f payload taking
  refine ⟨fun wrong => exec_timeSet taking rfl (ownerOf_format (i := .timeSet .b) rfl wrong rfl), ?_⟩
  rintro y1 y0 mo d h mi se rfl c
  refine ⟨fun outside => exec_timeSet taking rfl (if_neg fun inside => ?_), fun inside valid => ?_⟩
  · obtain ⟨h1, h2, h3, h4, h5, h6, h7, h8, h9⟩ := civilInRange_iff.1 inside
    rcases outside with h | h | h | h | h | h | h | h | h
    exacts [Nat.not_lt.2 h1 h, Nat.not_lt.2 h2 h, Nat.not_lt.2 h3 h, Nat.not_lt.2 h4 h, Nat.not_lt.2 h5 h,
      Nat.not_lt.2 h6 h, Nat.not_lt.2 h7 h, Nat.not_lt.2 h8 h, Nat.not_lt.2 h9 h]
  intro t size calendar r
  have stepped : stepCalendar s.calendar t = calendar := by
    by_cases trim : -60 ≤ size ∧ size ≤ 60
    · exact (stepCalendar_of_trim trim).trans (if_pos trim).symm
    · refine (stepCalendar_of_jump ?_ trim).trans (if_neg trim).symm
      unfold jumpMarks
      cases s.calendar.cycle <;> rfl
  have set : setTime .b t (s.takeFrame .b) = fireDue r := by
    refine (if_pos valid).trans ?_
    show fireDue (((s.takeFrame .b).setCalendar (stepCalendar s.calendar t)).append _ _ _ _) = fireDue r
    rw [stepped]
    rfl
  exact ⟨fireDue r, fireDue_firesTo r, exec_timeSet taking rfl ((if_pos (civilInRange_iff.2 inside)).trans
    (congrArg (fun u => (u, (⟨.ok, []⟩ : Answer))) set))⟩

/-- In HALTED a first setting enters the cycle, installs and appends CLOCK_SET, then fires (R75; log 8). -/
theorem setTimeInvalid_of_halted (halted : s.calendar.cycle = .halted) :
    let e := enterFirst (s.setCalendar { s.calendar with t := t', valid := true })
    setTimeInvalid p t' s =
      fireDue ((installNow e).append .clockSet (portCode p) (eventNight e) firstSettingDetail) := by
  unfold setTimeInvalid
  rw [halted]

/-- In SETTLING a first setting leaves the entry to the settlement end (R75; log 24). -/
theorem setTimeInvalid_of_settling {n : NightPlan} (settling : s.calendar.cycle = .settling n) :
    setTimeInvalid p t' s =
      (s.setCalendar { s.calendar with t := t', valid := true, entryDue := true }).append .clockSet
      (portCode p) n.date firstSettingDetail := by
  unfold setTimeInvalid eventNight
  rw [settling]
  rfl

theorem installNow_of_none (h : s.config.pending = none) : installNow s = s := by
  unfold installNow
  rw [install_of_none _ h, ite_self]

theorem fireDue_append (h : NothingDue s.calendar.cycle s.calendar.t) (k : EventKind) (a b : Nat) (d : Int) :
    fireDue (s.append k a b d) = s.append k a b d := by
  refine fireDue_ahead ?_
  rw [State.append_calendar]
  exact h

theorem nothingDue_enterFirst (s : State) :
    NothingDue (enterFirst s).calendar.cycle (enterFirst s).calendar.t := by
  have plan : (enterFirst s).calendar.cycle.PlanLawful := by
    rcases enterFirst_cases s with ⟨closed, o, lawful, eq⟩ | ⟨closed, p, lawful, -, eq⟩ <;> rw [eq]
    · exact planLawful_day fun p hp => (lawful p hp).1
    · exact planLawful_opened lawful
  have ahead := fireDue_nothingDue plan
  rwa [fireDue_enterFirst] at ahead

theorem enterFirst_config (s : State) : (enterFirst s).config = s.config := by
  rcases enterFirst_cases s with ⟨closed, o, -, eq⟩ | ⟨closed, p, -, -, eq⟩ <;> rw [eq] <;> rfl

/-- Settles O16: the entry at a first setting is the one R75 states, and an installation follows it in DAY. -/
theorem firstSettingEntersTheCycle : Obligations.FirstSettingEntersTheCycle := by
  intro s f y1 y0 mo d h mi se taking c inRange invalid set marked answers
  have answered {u : State} (h : setTimeInvalid .b (instantOf c) (s.takeFrame .b) = u) : answers u := by
    refine exec_timeSet taking rfl ((if_pos inRange).trans ?_)
    have first : setTime .b (instantOf c) (s.takeFrame .b) = setTimeInvalid .b (instantOf c) (s.takeFrame .b) :=
      if_neg (Bool.eq_false_iff.1 invalid)
    rw [← h, ← first]
  refine ⟨fun n settling => answered (setTimeInvalid_of_settling (s := s.takeFrame .b) settling), fun halted night =>
    ⟨enterFirst set, eventNight (enterFirst set), enterFirst_firstEntry set night, fun stays => ?_,
      fun n pending day => ?_⟩⟩
  · refine answered ((setTimeInvalid_of_halted (s := s.takeFrame .b) halted).trans ?_)
    have kept : installNow (enterFirst set) = enterFirst set := by
      rcases stays with none | ⟨n, opened⟩
      · exact installNow_of_none ((congrArg ConfigStore.pending (enterFirst_config set)).trans none)
      · exact if_neg (by rw [opened]; exact nofun)
    show fireDue ((installNow (enterFirst set)).append _ _ _ _) = _
    rw [kept]
    exact fireDue_append (nothingDue_enterFirst set) _ _ _ _
  · refine ⟨_, fireDue_firesTo _, answered ((setTimeInvalid_of_halted (s := s.takeFrame .b) halted).trans ?_)⟩
    have installs : installNow (enterFirst set) = install (eventNight (enterFirst set)) (enterFirst set) :=
      if_pos (by rw [day]; rfl)
    show fireDue ((installNow (enterFirst set)).append _ _ _ _) = _
    rw [installs]
    rfl

/-! ### The daylight-saving item (R59, R62) -/

variable {n : NightPlan} {night : NightParams} {rules : DstRules} {y m d : Nat}

theorem ruleInRange_iff {r : DstRule} : ruleInRange r = true ↔
    1 ≤ r.month ∧ r.month ≤ 12 ∧ 1 ≤ r.week ∧ r.week ≤ 5 ∧ r.weekday ≤ 6 ∧ r.hour ≤ 23 :=
  decide_eq_true_iff

theorem rulesInRange_iff {en : Nat} {a b : DstRule} : rulesInRange en a b = true ↔
    en ≤ 1 ∧ ruleInRange a = true ∧ ruleInRange b = true := by
  simp only [rulesInRange, Bool.and_eq_true, decide_eq_true_iff, and_assoc]

theorem replan_of_not_planned (h : ∀ n, s.calendar.cycle ≠ .day (some n)) : replan s = s := by
  rcases replan_cycle s with ⟨p, hc, -⟩ | ⟨-, hc⟩
  · exact absurd hc (h p)
  · rw [replan_frame, hc]
    rfl

theorem replan_of_planned (h : s.calendar.cycle = .day (some n)) :
    replan s = s.setCalendar { s.calendar with cycle := .day (s.plan n.date) } := by
  unfold replan
  rw [h]

theorem exec_daylightSaving {payload : List Octet} (taking : Taking s .b f 0x19 (1 :: payload)) {x : Status}
    {out : List Octet} (answer : ownDaylightSaving .b (1 :: payload) (s.takeFrame .b) = (t, ⟨x, out⟩)) :
    exec (.paramSetDaylightSaving .b) s = .next (replied s .b f t x out) := by
  refine exec_of_taking taking rfl ?_ List.mem_cons_self answer
  obtain ⟨-, -, payload⟩ := taking
  show f.payload.head? ≠ some 2
  rw [payload]
  show some (1 : Octet) ≠ some 2
  decide

/-- The item's ranges decide whether its rules are taken (R59). -/
theorem ownDaylightSaving_eq (p : Port) (en m1 w1 d1 h1 m2 w2 d2 h2 : Octet) (s : State) :
    let a : DstRule := ⟨m1.toNat, w1.toNat, d1.toNat, h1.toNat⟩
    let b : DstRule := ⟨m2.toNat, w2.toNat, d2.toNat, h2.toNat⟩
    ownDaylightSaving p [1, en, m1, w1, d1, h1, m2, w2, d2, h2] s =
      if rulesInRange en.toNat a b = true then
        (fireDue (replan (s.setCalendar { s.calendar with rules := ⟨decide (en = 1), a, b⟩ })), ⟨.ok, []⟩)
      else (s, refusal .range) := by
  intro a b
  have item : ¬ (1 : Octet).toNat ≠ 1 := by decide
  simp only [ownDaylightSaving, if_neg item, decide_toNat_eq_one]
  cases rulesInRange en.toNat a b <;> rfl

/-! ### The days and the plan of a night (R53, R60, R63, R64) -/

theorem monthLength_eq (y m : Nat) : monthLength y m =
    if m = 2 then (if y % 4 = 0 then 29 else 28) else if m ∈ [4, 6, 9, 11] then 30 else 31 := by
  unfold monthLength leapYear
  split
  · simp only [if_true, decide_eq_true_iff]
  all_goals simp_all

theorem nightOffset_cases (rules : DstRules) (d : Nat) : nightOffset rules d = 4 ∨ nightOffset rules d = 0 := by
  unfold nightOffset
  split
  · exact .inl rfl
  · exact .inr rfl

/-- A window that starts in the evening starts on its own date (R63). -/
theorem windowStartOf_evening (h : 72 ≤ night.start) :
    windowStartOf night rules d + nightOffset rules d = 96 * d + night.start := by
  unfold windowStartOf
  rw [if_pos h]
  have := nightOffset_cases rules d
  omega

/-- A window that starts in the small hours starts on the day after its date (R63). -/
theorem windowStartOf_morning (h : night.start ≤ 23) :
    windowStartOf night rules d + nightOffset rules d = 96 * (d + 1) + night.start := by
  unfold windowStartOf
  rw [if_neg (by omega)]
  have := nightOffset_cases rules d
  omega

/-- Settles O17: the item re-plans the planned night alone; the days and rules go by the lengths of the months. -/
theorem daylightSavingAndTheNightPlan : Obligations.DaylightSavingAndTheNightPlan := by
  refine ⟨?_, ?_⟩
  · intro s f en m1 w1 d1 h1 m2 w2 d2 h2 lawful taking inRange rules r
    have ranges : rulesInRange en.toNat ⟨m1.toNat, w1.toNat, d1.toNat, h1.toNat⟩
        ⟨m2.toNat, w2.toNat, d2.toNat, h2.toNat⟩ = true ↔
        en.toNat ≤ 1 ∧ inRange m1 w1 d1 h1 ∧ inRange m2 w2 d2 h2 := by
      rw [rulesInRange_iff, ruleInRange_iff, ruleInRange_iff]
    have accepted (h : en.toNat ≤ 1 ∧ inRange m1 w1 d1 h1 ∧ inRange m2 w2 d2 h2) :
        exec (.paramSetDaylightSaving .b) s = .next (replied s .b f (fireDue (replan r)) .ok []) := by
      refine exec_daylightSaving taking ((ownDaylightSaving_eq ..).trans ?_)
      exact if_pos (ranges.2 h)
    refine ⟨fun outside => exec_daylightSaving taking ((ownDaylightSaving_eq ..).trans
      (if_neg fun h => outside (ranges.1 h))), fun inside =>
      ⟨fun unplanned => ?_, fun n planned => ?_⟩⟩
    · rw [accepted inside, replan_of_not_planned (s := r) unplanned, fireDue_ahead (s := r) lawful.2.1]
    · refine ⟨_, fireDue_firesTo _, ?_⟩
      rw [accepted inside, replan_of_planned (s := r) planned]
      rfl
  · intro days
    have month (y m : Nat) : days y m = monthLength y m := (monthLength_eq y m).symm
    refine ⟨⟨by decide, dayOfDate_next_year, fun y m _ first => ⟨fun _ => ?_, fun d _ => dayOfDate_day y m d⟩⟩,
      fun r y _ _ h1 h5 h6 => ?_, fun rules t y => inForce_iff rules t y, fun night rules d inRange => ?_⟩
    · rw [month]
      exact dayOfDate_next_month y m first
    · obtain ⟨day, least, most, early, last⟩ := ruleDay_spec r y h1 h5 h6
      simp only [month]
      exact ⟨ruleDay r y, rfl, day, least, most, early, last⟩
    · exact ⟨planFor night rules d, rfl, rfl, windowStartOf_evening, windowStartOf_morning, rfl, rfl, rfl, rfl⟩

end Sys2Proof.Machine
end

section
/-!
PROOFS. The settlement end (section 3.4): the meters' histories, the expired suspensions, the installation and the next
night.
-/

namespace Sys2Proof.Machine

variable {s t u : State} {n : NightPlan} {m d : Nat} {es es' : List (EventKind × Nat × Nat × Int)}

/-! ### What appends change (R152) -/

/-- A state with the Event Queue and the ports of another. -/
def State.logged (s t : State) : State := { s with events := t.events, ports := t.ports }

theorem append_logged (kind : EventKind) (subject night : Nat) (detail : Int) (he : s.events = t.events)
    (hp : s.ports = t.ports) : s.append kind subject night detail = s.logged (t.append kind subject night detail) := by
  obtain ⟨events, ports⟩ := State.append_congr s kind subject night detail t he hp
  apply State.ext_fields <;> simp [State.logged, events, ports]

/-- What a list of appends does is decided by the Event Queue and the ports. -/
theorem appendAll_logged (es : List (EventKind × Nat × Nat × Int)) (he : s.events = t.events) (hp : s.ports = t.ports) :
    appendAll es s = s.logged (appendAll es t) := by
  induction es generalizing s t with
  | nil =>
    show s = s.logged t
    unfold State.logged
    rw [← he, ← hp]
  | cons e rest ih =>
    have first := append_logged e.1 e.2.1 e.2.2.1 e.2.2.2 he hp
    have events : (s.append e.1 e.2.1 e.2.2.1 e.2.2.2).events =
        (t.append e.1 e.2.1 e.2.2.1 e.2.2.2).events := by rw [first]; rfl
    have ports : (s.append e.1 e.2.1 e.2.2.1 e.2.2.2).ports =
        (t.append e.1 e.2.1 e.2.2.1 e.2.2.2).ports := by rw [first]; rfl
    refine (ih events ports).trans ?_
    rw [first]
    rfl

theorem logged_appendAll (es : List (EventKind × Nat × Nat × Int)) (he : t.events = u.events) (hp : t.ports = u.ports) :
    s.logged (appendAll es t) = s.logged (appendAll es u) := by
  rw [appendAll_logged es he hp]
  rfl

theorem appendAll_append (es es' : List (EventKind × Nat × Nat × Int)) (s : State) :
    appendAll (es ++ es') s = appendAll es' (appendAll es s) :=
  List.foldl_append

/-! ### The meters' histories (R23) -/

/-- The events of a settlement end at night d: the meters of a list that it makes SILENT (R23). -/
def silencedEvents (d : Nat) (x : Intake) (l : List Nat) : List (EventKind × Nat × Nat × Int) :=
  (l.filter (fun m => m ∉ x.heard ∧ (runtimeOf x m).silentNights = 2)).map (fun m => (.meterSilent, m, d, 0))

/-- A meter's runtime as a settlement end leaves it. -/
def advanced (x : Intake) (m : Nat) : MeterRuntime := (advanceMeter (hasIdx x.heard m) (runtimeOf x m)).1

theorem advanceMeter_silences {x : Intake} :
    (advanceMeter (hasIdx x.heard m) (runtimeOf x m)).2 = decide (m ∉ x.heard ∧ (runtimeOf x m).silentNights = 2) := by
  unfold advanceMeter hasIdx
  by_cases heard : m ∈ x.heard
  · simp [heard]
  · by_cases below : (runtimeOf x m).silentNights < 3
    · by_cases two : (runtimeOf x m).silentNights = 2
      · simp [heard, two]
      · have : ¬ (runtimeOf x m).silentNights + 1 = 3 := by omega
        simp [heard, below, two]
    · have : ¬ (runtimeOf x m).silentNights = 2 := by omega
      simp [heard, below, this]

theorem advanced_eq (x : Intake) (m : Nat) : advanced x m =
    if m ∈ x.heard then ⟨.active, 0⟩
    else if (runtimeOf x m).silentNights < 2 then ⟨(runtimeOf x m).condition, (runtimeOf x m).silentNights + 1⟩
    else if (runtimeOf x m).silentNights = 2 then ⟨.silent, 3⟩
    else runtimeOf x m := by
  unfold advanced advanceMeter
  by_cases heard : m ∈ x.heard
  · rw [if_pos ((hasIdx_iff _ _).2 heard), if_pos heard]
  rw [if_neg fun h => heard ((hasIdx_iff _ _).1 h), if_neg heard]
  by_cases below : (runtimeOf x m).silentNights < 2
  · rw [if_pos (by omega), if_neg (by omega), if_pos below]
  by_cases two : (runtimeOf x m).silentNights = 2
  · rw [if_pos (by omega), if_pos (by omega), if_neg below, if_pos two]
  · rw [if_neg (by omega), if_neg below, if_neg two]

/-- One meter's update. -/
theorem updateMeter_eq (d : Nat) (s : State) (m : Nat) : updateMeter d s m =
    (s.setIntake { s.intake with runtime := tput s.intake.runtime m (advanced s.intake m) }).logged
      (appendAll (silencedEvents d s.intake [m]) s) := by
  unfold updateMeter silencedEvents
  dsimp only
  rw [advanceMeter_silences]
  by_cases silences : m ∉ s.intake.heard ∧ (runtimeOf s.intake m).silentNights = 2
  · have listed : [m].filter (fun m => m ∉ s.intake.heard ∧ (runtimeOf s.intake m).silentNights = 2) = [m] :=
      List.filter_cons_of_pos (decide_eq_true silences)
    rw [if_pos (decide_eq_true silences), listed]
    exact append_logged _ _ _ _ rfl rfl
  · have never := decide_eq_false silences
    have listed : [m].filter (fun m => m ∉ s.intake.heard ∧ (runtimeOf s.intake m).silentNights = 2) = [] :=
      List.filter_cons_of_neg (Bool.eq_false_iff.1 never)
    rw [if_neg (Bool.eq_false_iff.1 never), listed]
    rfl

theorem runtimeOf_tput_ne {x : Intake} {r : MeterRuntime} {k : Nat} (ne : m ≠ k) :
    runtimeOf { x with runtime := tput x.runtime m r } k = runtimeOf x k := by
  unfold runtimeOf
  show (tget (tput x.runtime m r) k).getD _ = _
  rw [tget_tput_ne _ _ _ _ (Ne.symm ne)]

/-- Distinct meters are updated each from its own runtime (R23). -/
theorem foldl_updateMeter (d : Nat) (l : List Nat) (distinct : l.Nodup) (s : State) :
    ∃ table, (∀ m, tget table m = if m ∈ l then some (advanced s.intake m) else tget s.intake.runtime m) ∧
      l.foldl (updateMeter d) s =
        (s.setIntake { s.intake with runtime := table }).logged (appendAll (silencedEvents d s.intake l) s) := by
  induction l generalizing s with
  | nil => exact ⟨s.intake.runtime, fun m => (if_neg List.not_mem_nil).symm, rfl⟩
  | cons k rest ih =>
    obtain ⟨notIn, distinct⟩ := List.nodup_cons.1 distinct
    obtain ⟨table, entries, folded⟩ := ih distinct (updateMeter d s k)
    have intake : (updateMeter d s k).intake =
        { s.intake with runtime := tput s.intake.runtime k (advanced s.intake k) } := by
      rw [updateMeter_eq]
      rfl
    have others (m : Nat) (hm : m ∈ rest) : runtimeOf (updateMeter d s k).intake m = runtimeOf s.intake m := by
      rw [intake]
      exact runtimeOf_tput_ne fun same => notIn (same ▸ hm)
    have heard : (updateMeter d s k).intake.heard = s.intake.heard := by rw [intake]
    have events : silencedEvents d (updateMeter d s k).intake rest = silencedEvents d s.intake rest := by
      unfold silencedEvents
      rw [heard, List.filter_congr fun m hm => by rw [others m hm]]
    refine ⟨table, fun m => ?_, ?_⟩
    · rw [entries m]
      by_cases inRest : m ∈ rest
      · rw [if_pos inRest, if_pos (List.mem_cons_of_mem _ inRest)]
        unfold advanced
        rw [others m inRest, heard]
      · rw [if_neg inRest, intake]
        by_cases same : k = m
        · rw [if_pos (same ▸ List.mem_cons_self), same]
          exact tget_tput_self _ _ _
        · rw [if_neg fun h => (List.mem_cons.1 h).elim (fun e => same e.symm) inRest]
          exact tget_tput_ne _ _ _ _ (Ne.symm same)
    · rw [List.foldl_cons, folded, events]
      have split : silencedEvents d s.intake (k :: rest) =
          silencedEvents d s.intake [k] ++ silencedEvents d s.intake rest := by
        unfold silencedEvents
        rw [← List.map_append, ← List.filter_append]
        rfl
      rw [split, appendAll_append]
      have logged := appendAll_logged (s := updateMeter d s k) (t := appendAll (silencedEvents d s.intake [k]) s)
        (silencedEvents d s.intake rest) (by rw [updateMeter_eq]; rfl) (by rw [updateMeter_eq]; rfl)
      rw [logged, updateMeter_eq]
      rfl

/-! ### Suspensions (R142) -/

/-- The events of the suspensions that expire at the settlement end of night d, in the order of the meters. -/
def expiredEvents (d : Nat) (l : Tbl Suspension) : List (EventKind × Nat × Nat × Int) :=
  (l.filter (fun x => x.2.untilNight ≤ d)).map (fun x => (.suspensionExpired, x.1, d, (portCode x.2.setBy : Int)))

theorem expireSuspensions_eq (d : Nat) (s : State) : expireSuspensions d s =
    (s.setSuspensions (s.suspensions.filter (fun x => d < x.2.untilNight))).logged
      (appendAll (expiredEvents d s.suspensions) s) := by
  have kept : s.suspensions.filter (fun e => !expires d e.2) = s.suspensions.filter (fun x => d < x.2.untilNight) :=
    List.filter_congr fun x _ => by simp only [expires, ← decide_not, Nat.not_le]
  have appends (u : State) (l : Tbl Suspension) :
      l.foldl (fun r e => r.append .suspensionExpired e.1 d (portCode e.2.setBy)) u =
        appendAll (l.map (fun x => (.suspensionExpired, x.1, d, (portCode x.2.setBy : Int)))) u := by
    unfold appendAll
    rw [List.foldl_map]
  unfold expireSuspensions
  rw [appends, kept]
  exact appendAll_logged _ rfl rfl

/-! ### The night is settled (R71) -/

/-- Steps 1 to 3 of a settlement end: the meters advanced, the night cleared, the expired suspensions removed, a pending
set installed. -/
theorem settledState_spec (distinct : (tkeys s.config.active.meters).Nodup) : ∃ table,
    (∀ m, tget table m = if m ∈ tkeys s.config.active.meters then some (advanced s.intake m)
      else tget s.intake.runtime m) ∧
    settledState n s = install n.date ({ s with
      calendar := { s.calendar with cycle := .day none }
      intake := ⟨table, [], [], [], []⟩
      suspensions := s.suspensions.filter (fun x => n.date < x.2.untilNight) }.logged
      (appendAll (silencedEvents n.date s.intake (tkeys s.config.active.meters) ++
        expiredEvents n.date s.suspensions) s)) := by
  obtain ⟨table, entries, folded⟩ := foldl_updateMeter n.date (tkeys s.config.active.meters) distinct
    (s.setCalendar { s.calendar with cycle := .day none })
  have first : updateMeters n.date (s.setCalendar { s.calendar with cycle := .day none }) =
      ((s.setCalendar { s.calendar with cycle := .day none }).setIntake { s.intake with runtime := table }).logged
        (appendAll (silencedEvents n.date s.intake (tkeys s.config.active.meters)) s) := by
    exact folded.trans (logged_appendAll (u := s) _ rfl rfl)
  refine ⟨table, entries, congrArg (install n.date) ?_⟩
  show expireSuspensions n.date ((updateMeters n.date _).setIntake (clearNight (updateMeters n.date _).intake)) = _
  rw [first, expireSuspensions_eq, appendAll_append]
  exact logged_appendAll (u := appendAll (silencedEvents n.date s.intake (tkeys s.config.active.meters)) s) _ rfl rfl

theorem mem_tkeys {α : Type} {t : Tbl α} (hw : tableWf t = true) : m ∈ tkeys t ↔ (tget t m).isSome = true := by
  constructor
  · intro h
    obtain ⟨x, hx, rfl⟩ := List.mem_map.1 h
    rw [tget_of_mem hw hx]
    rfl
  · intro h
    obtain ⟨v, hv⟩ := Option.isSome_iff_exists.1 h
    exact List.mem_map.2 ⟨(m, v), mem_of_tget hv, rfl⟩

theorem tkeys_nodup {α : Type} {t : Tbl α} (hw : tableWf t = true) : (tkeys t).Nodup := by
  have rising := tkeys_sorted hw
  simp only [idxWf, decide_eq_true_eq] at rising
  exact rising.imp Nat.ne_of_lt

theorem planAfter_halts (invalid : s.calendar.valid = false) :
    planAfter d s = s.setCalendar { s.calendar with cycle := .halted, entryDue := false } := by
  unfold planAfter
  rw [invalid]
  rfl

theorem planAfter_enters (valid : s.calendar.valid = true) (due : s.calendar.entryDue = true) :
    planAfter d s = enterFirst (s.setCalendar { s.calendar with entryDue := false }) := by
  unfold planAfter
  rw [valid, due]
  rfl

theorem planAfter_plans (valid : s.calendar.valid = true) (none : s.calendar.entryDue = false) :
    planAfter d s = s.setCalendar { s.calendar with
      cycle := .day (s.plan (firstOutside s.calendar.leftOut (d + 1))) } := by
  unfold planAfter
  rw [valid, none]
  rfl

theorem exec_settlementEnd (on : s.retention.powered = true) (settling : s.calendar.cycle = .settling n)
    (complete : s.settlement = none) :
    exec .settlementEnd s = .next (fireDue (planAfter n.date (settledState n s))) := by
  refine congrArg Host.Outcome.next ((whenPowered_on on).trans ?_)
  unfold settlementEndEvent
  rw [settling, complete]
  rfl

/-- Settles O21: the four steps of a settlement end, the last by the calendar as it stands. -/
theorem settlementEndTakesItsSteps : Obligations.SettlementEndTakesItsSteps := by
  intro s n canonical on settling complete runtime silenced expired appended
  have meters : tableWf s.config.active.meters = true := canonical.1.1
  obtain ⟨table, entries, settled⟩ := settledState_spec (n := n) (tkeys_nodup meters)
  refine ⟨table, fun m => ?_, ?_⟩
  · rw [entries m]
    by_cases active : m ∈ tkeys s.config.active.meters
    · have present := Option.isSome_iff_ne_none.1 ((mem_tkeys meters).1 active)
      rw [if_pos active, if_neg (mt Option.isNone_iff_eq_none.1 present), advanced_eq]
      simp only [apply_ite Option.some]
      rfl
    · have none : (tget s.config.active.meters m).isNone = true := by
        rw [Option.isNone_iff_eq_none, ← Option.not_isSome_iff_eq_none]
        exact fun h => active ((mem_tkeys meters).2 h)
      rw [if_neg active, if_pos none]
  intro u v
  have reached : settledState n s = v := by
    rw [settled]
    show install n.date u = v
    by_cases pending : s.config.pending = none
    · exact (install_of_none (s := u) n.date pending).trans (if_pos pending).symm
    · exact (if_neg pending).symm
  have calendar : v.calendar = { s.calendar with cycle := .day none } := by
    rw [← reached, settledState_calendar]
  have answered := exec_settlementEnd on settling complete
  rw [reached] at answered
  refine ⟨fun invalid => ?_, fun valid notDue => ?_, fun valid due night => ?_⟩
  · rw [answered, planAfter_halts (by rw [calendar]; exact invalid), fireDue_of_halted rfl]
    rfl
  · obtain ⟨later, outside, least⟩ := firstOutside_spec s.calendar.leftOut (n.date + 1)
    refine ⟨_, _, later, outside, fun k after before => least k after before, fireDue_firesTo _, ?_⟩
    rw [answered, planAfter_plans (by rw [calendar]; exact valid) (by rw [calendar]; exact notDue)]
    unfold State.plan
    rw [calendar]
    rfl
  · refine ⟨_, _, enterFirst_firstEntry _ night, ?_⟩
    rw [answered, planAfter_enters (by rw [calendar]; exact valid) (by rw [calendar]; exact due), fireDue_enterFirst]
    rfl

end Sys2Proof.Machine
end

section
/-!
PROOFS. An offer to the Burst Watch (section 6.2): what it does to one district, and that it examines each
district whose terms name the meter, apart from every other.
-/

namespace Sys2Proof.Machine

variable {s t : State} {n : NightPlan} {d k m b j : Nat} {e : DistrictEntry} {r : DistrictRuntime}

/-! ### One district (R127 to R131) -/

theorem watchedBaseline_eq_none (runtime : tget s.districts d = some r)
    (unwatched : e.burstThreshold = 0 ∨ r.alarm = .learning ∨ r.alarm = .leak ∨ d ∈ s.burst.raised ∨
      (∃ x ∈ e.terms, x.meter ∈ s.intake.suspended) ∨ s.calendar.disturbed = true) : watchedBaseline s d e = none := by
  unfold watchedBaseline
  rw [runtime]
  refine if_pos ?_
  simpa only [hasIdx_iff, termSuspended, List.any_eq_true] using unwatched

theorem watchedBaseline_eq (runtime : tget s.districts d = some r)
    (watched : ¬ (e.burstThreshold = 0 ∨ r.alarm = .learning ∨ r.alarm = .leak ∨ d ∈ s.burst.raised ∨
      (∃ x ∈ e.terms, x.meter ∈ s.intake.suspended) ∨ s.calendar.disturbed = true)) :
    watchedBaseline s d e = r.baseline := by
  unfold watchedBaseline
  rw [runtime]
  refine if_neg ?_
  simpa only [hasIdx_iff, termSuspended, List.any_eq_true] using watched

/-- The positions newly marked are the complete ones around the slot that exceed the threshold (R128, R130). -/
theorem mem_newMarks {length : Nat} : j ∈ newMarks s e b length k ↔ j ≤ k ∧ k ≤ j + 3 ∧ j + 4 ≤ length ∧
    ∃ v, hourSum filledValue s.config.active.meters s.intake.store e.terms j = some v ∧
      v - ((b : Int) + (lnu e : Int)) > (e.burstThreshold : Int) := by
  unfold newMarks positionsOf
  simp only [List.mem_filter, List.mem_range, decide_eq_true_eq]
  cases hourSum filledValue s.config.active.meters s.intake.store e.terms j with
  | none => simp
  | some v =>
    simp only [exceeds, decide_eq_true_eq, Option.some.injEq, exists_eq_left']
    omega

theorem mem_foldl_insertIdx (l : List Nat) (x : IdxSet) : j ∈ l.foldl insertIdx x ↔ j ∈ x ∨ j ∈ l := by
  induction l generalizing x with
  | nil => simp
  | cons a rest ih =>
    rw [List.foldl_cons, ih, mem_insertIdx, List.mem_cons]
    tauto

/-- A burst is found at a newly marked position with a marked neighbour (R131). -/
theorem burstFound_iff {fresh : List Nat} {marks : IdxSet} : burstFound fresh marks = true ↔
    ∃ j ∈ fresh, j + 1 ∈ marks ∨ ∃ i, j = i + 1 ∧ i ∈ marks := by
  unfold burstFound
  simp only [List.any_eq_true, Bool.or_eq_true, Bool.and_eq_true, hasIdx_iff, decide_eq_true_eq]
  refine exists_congr fun j => and_congr_right fun _ => or_congr_right ?_
  constructor
  · rintro ⟨positive, h⟩
    exact ⟨j - 1, by omega, h⟩
  · rintro ⟨i, rfl, h⟩
    exact ⟨Nat.succ_pos i, h⟩

/-- The burst watch after it has examined a watched district. -/
theorem examine_watched (watched : watchedBaseline s d e = some b) : 
    let fresh := newMarks s e b n.length k
    let marks := fresh.foldl insertIdx (marksOf s.burst d)
    examine n k s (d, e) = if fresh = [] then s
      else if burstFound fresh marks then s.setBurst
        { marks := tput s.burst.marks d marks
          raised := insertIdx s.burst.raised d
          held := tput s.burst.held d n.date }
      else s.setBurst { s.burst with marks := tput s.burst.marks d marks } := by
  unfold examine
  rw [watched]

/-! ### One offer (R126) -/

/-- Two states differ at most in the burst watch, and there not in what it holds of district d. -/
def AgreeAt (d : Nat) (s t : State) : Prop :=
  t = s.setBurst t.burst ∧ tget t.burst.marks d = tget s.burst.marks d ∧
    (d ∈ t.burst.raised ↔ d ∈ s.burst.raised) ∧ tget t.burst.held d = tget s.burst.held d

namespace AgreeAt

theorem refl (d : Nat) (s : State) : AgreeAt d s s := ⟨rfl, rfl, .rfl, rfl⟩

theorem trans {u : State} (h : AgreeAt d s t) (h' : AgreeAt d t u) : AgreeAt d s u := by
  obtain ⟨frame, marks, raised, held⟩ := h
  obtain ⟨frame', marks', raised', held'⟩ := h'
  exact ⟨by rw [frame', frame]; rfl, marks'.trans marks, raised'.trans raised,
    held'.trans held⟩

/-- Another district's examination leaves what is held of d. -/
theorem examine (n : NightPlan) (k : Nat) (s : State) {place : Nat × DistrictEntry} (other : place.1 ≠ d) :
    AgreeAt d s (examine n k s place) := by
  obtain ⟨d', e⟩ := place
  rcases examine_cases n k s d' e with same | ⟨b, marks, -, -, h | h⟩
  · rw [same]
    exact .refl d s
  · rw [h]
    exact ⟨rfl, tget_tput_ne _ _ _ _ (Ne.symm other), .rfl, rfl⟩
  · rw [h]
    refine ⟨rfl, tget_tput_ne _ _ _ _ (Ne.symm other), ?_, tget_tput_ne _ _ _ _ (Ne.symm other)⟩
    rw [State.setBurst_burst, mem_insertIdx]
    exact ⟨fun h => h.resolve_left (Ne.symm other), .inr⟩

theorem foldl_examine (n : NightPlan) (k : Nat) (l : List (Nat × DistrictEntry)) (s : State)
    (others : ∀ place ∈ l, place.1 ≠ d) : AgreeAt d s (l.foldl (Machine.examine n k) s) := by
  induction l generalizing s with
  | nil => exact .refl d s
  | cons place rest ih =>
    exact (examine n k s (others place List.mem_cons_self)).trans
      (ih _ fun x hx => others x (List.mem_cons_of_mem _ hx))

/-- What the examination of d does to d goes by what is held of d. -/
theorem congr (h : AgreeAt d s t) (n : NightPlan) (k : Nat) (e : DistrictEntry) :
    tget (Machine.examine n k t (d, e)).burst.marks d = tget (Machine.examine n k s (d, e)).burst.marks d ∧
    (d ∈ (Machine.examine n k t (d, e)).burst.raised ↔ d ∈ (Machine.examine n k s (d, e)).burst.raised) ∧
    tget (Machine.examine n k t (d, e)).burst.held d = tget (Machine.examine n k s (d, e)).burst.held d := by
  obtain ⟨frame, marks, raised, held⟩ := h
  have watched : watchedBaseline t d e = watchedBaseline s d e := by
    unfold watchedBaseline
    rw [frame]
    simp only [State.setBurst_districts, State.setBurst_burst, State.setBurst_intake, State.setBurst_calendar,
      hasIdx_iff, raised]
  have fresh (b : Nat) : newMarks t e b n.length k = newMarks s e b n.length k := by
    rw [frame]
    rfl
  have before : marksOf t.burst d = marksOf s.burst d := congrArg (·.getD []) marks
  cases hw : watchedBaseline s d e with
  | none =>
    have idle {u : State} (h : watchedBaseline u d e = none) : Machine.examine n k u (d, e) = u := by
      unfold Machine.examine
      rw [h]
    rw [idle hw, idle (watched.trans hw)]
    exact ⟨marks, raised, held⟩
  | some b =>
    rw [examine_watched hw, examine_watched (watched.trans hw), fresh, before]
    split
    · exact ⟨marks, raised, held⟩
    · split
      · exact ⟨by simp only [State.setBurst_burst, tget_tput_self],
          by simp only [State.setBurst_burst, mem_insertIdx, true_or],
          by simp only [State.setBurst_burst, tget_tput_self]⟩
      · exact ⟨by simp only [State.setBurst_burst, tget_tput_self], raised, held⟩

end AgreeAt

theorem namesMeter_iff : namesMeter e m = true ↔ ∃ x ∈ e.terms, x.meter = m := by
  simp only [namesMeter, List.any_eq_true, decide_eq_true_eq]

/-- Settles O34: one district by its newly marked positions; the districts of an offer one after another, each
on its own part of the burst watch. -/
theorem offersMarkAndFindBursts : Obligations.OffersMarkAndFindBursts := by
  refine ⟨fun s n k d e r runtime => ?_, fun s n m k => ⟨takeOffer_frame n m k s, fun d others => ?_,
    fun d e canonical place names => ?_⟩⟩
  · intro t unwatched before
    refine ⟨fun h => ?_, fun b watched baseline => ?_⟩
    · show examine n k s (d, e) = s
      unfold examine
      rw [watchedBaseline_eq_none runtime h]
    intro h fresh marked found
    have examined := examine_watched (n := n) (k := k) ((watchedBaseline_eq runtime watched).trans baseline)
    have isFresh (j : Nat) : j ∈ newMarks s e b n.length k ↔ fresh j := mem_newMarks
    have isMarked (j : Nat) : j ∈ (newMarks s e b n.length k).foldl insertIdx (marksOf s.burst d) ↔ marked j := by
      rw [mem_foldl_insertIdx, isFresh]
      rfl
    have isFound : burstFound (newMarks s e b n.length k)
        ((newMarks s e b n.length k).foldl insertIdx (marksOf s.burst d)) = true ↔ found := by
      rw [burstFound_iff]
      simp only [isFresh, isMarked]
      rfl
    have frame : t = { s with burst := t.burst } := examine_frame n k s (d, e)
    by_cases none : newMarks s e b n.length k = []
    · have same : t = s := examined.trans (if_pos none)
      have notFresh (j : Nat) : ¬ fresh j := fun hj => by
        have := (isFresh j).2 hj
        rw [none] at this
        cases this
      rw [same]
      exact ⟨fun j => (or_iff_left (notFresh j)).symm, fun _ _ => rfl,
        fun ⟨j, hj, _⟩ => absurd hj (notFresh j), fun _ => ⟨rfl, rfl⟩, rfl⟩
    · replace examined := examined.trans (if_neg none)
      by_cases finds : burstFound (newMarks s e b n.length k)
          ((newMarks s e b n.length k).foldl insertIdx (marksOf s.burst d)) = true
      · have burst := congrArg State.burst (examined.trans (if_pos finds))
        refine ⟨fun j => ?_, fun d' ne => ?_, fun _ => ?_, fun notFound => absurd (isFound.1 finds) notFound, frame⟩ <;>
          rw [show t.burst = _ from burst, State.setBurst_burst]
        · rw [tget_tput_self, Option.getD_some]
          exact isMarked j
        · exact tget_tput_ne _ _ _ _ ne
        · exact ⟨rfl, rfl⟩
      · have burst := congrArg State.burst (examined.trans (if_neg finds))
        refine ⟨fun j => ?_, fun d' ne => ?_, fun hf => absurd (isFound.2 hf) finds, fun _ => ?_, frame⟩ <;>
          rw [show t.burst = _ from burst, State.setBurst_burst]
        · rw [tget_tput_self, Option.getD_some]
          exact isMarked j
        · exact tget_tput_ne _ _ _ _ ne
        · exact ⟨rfl, rfl⟩
  · have agree : AgreeAt d s (takeOffer n m k s) := by
      refine .foldl_examine n k _ s fun place hp same => ?_
      obtain ⟨listed, named⟩ := List.mem_filter.1 hp
      obtain ⟨x, hx, hm⟩ := namesMeter_iff.1 named
      exact others place.2 (same ▸ listed) x hx hm
    exact agree.2
  · have rising : (s.config.active.districts.filter (fun x => namesMeter x.2 m)).Pairwise (fun x y => x.1 < y.1) :=
      ((tableWf_iff _).1 canonical.2).filter _
    obtain ⟨before, after, split⟩ := List.append_of_mem
      (List.mem_filter (p := fun x : Nat × DistrictEntry => namesMeter x.2 m).2 ⟨place, namesMeter_iff.2 names⟩)
    rw [split, List.pairwise_append, List.pairwise_cons] at rising
    obtain ⟨-, ⟨later, -⟩, earlier⟩ := rising
    have first : AgreeAt d s (before.foldl (examine n k) s) :=
      .foldl_examine n k before s fun x hx => Nat.ne_of_lt (earlier x hx _ List.mem_cons_self)
    have rest : AgreeAt d (examine n k (before.foldl (examine n k) s) (d, e)) (takeOffer n m k s) := by
      have offered : takeOffer n m k s =
          after.foldl (examine n k) (examine n k (before.foldl (examine n k) s) (d, e)) := by
        unfold takeOffer
        rw [split, List.foldl_append, List.foldl_cons]
      rw [offered]
      exact .foldl_examine n k after _ fun x hx => Nat.ne_of_gt (later x hx)
    obtain ⟨marks, raised, held⟩ := first.congr n k e
    obtain ⟨-, marks', raised', held'⟩ := rest
    exact ⟨marks'.trans marks, raised'.trans raised, held'.trans held⟩

end Sys2Proof.Machine
end

section
/-!
PROOFS. REBASE, RELEARN and SUSPEND (sections 5.4 and 7.2), and the reads that name a meter, a district or a night
(sections 1.5, 5.4 and 8.3).
-/

namespace Sys2Proof.Machine

variable {s t : State} {p : Port} {f : Frame} {i : Instr} {k : Nat} {d : Octet} {e : DistrictEntry}
  {r : DistrictRuntime}

theorem mem_anyPort (p : Port) : p ∈ [Port.a, .b, .c] := by
  cases p <;> decide

/-! ### REBASE and RELEARN (R115, R116) -/

theorem newestAssessed_eq_none {ring : List NightRecord} (h : ∀ x ∈ ring, x.result = .notAssessed) :
    newestAssessed ring = none := by
  unfold newestAssessed
  rw [List.findSome?_eq_none_iff]
  intro x hx
  rw [h x (List.mem_reverse.1 hx)]

theorem newestAssessed_eq_some {older newer : List NightRecord} {x : NightRecord} {l : Nat}
    (assessed : x.result ≠ .notAssessed) (leakage : x.lnorm = some l) (h : ∀ y ∈ newer, y.result = .notAssessed) :
    newestAssessed (older ++ x :: newer) = some (x.date, l) := by
  have later : newestAssessed newer = none := newestAssessed_eq_none h
  unfold newestAssessed at later ⊢
  rw [List.reverse_append, List.reverse_cons, List.append_assoc, List.findSome?_append, later, Option.none_or,
    List.singleton_append, List.findSome?_cons, leakage]
  cases hr : x.result with
  | notAssessed => exact absurd hr assessed
  | learnt => rfl
  | normal => rfl
  | high => rfl

theorem ownRebase_noNight (index : d.toNat ≤ 63) (found : districtOf s d.toNat = some (e, r))
    (none : r.alarm = .learning ∨ newestAssessed (ringOf s.history d.toNat) = none) :
    ownRebase p [d] s = (s, refusal .noNight) := by
  simp only [ownRebase, if_neg (Nat.not_lt.2 index), found]
  rcases none with learning | none
  · exact if_pos learning
  · rw [none]
    exact ite_self _

theorem ownRebase_ok {date b : Nat} (index : d.toNat ≤ 63) (found : districtOf s d.toNat = some (e, r))
    (learnt : r.alarm ≠ .learning) (newest : newestAssessed (ringOf s.history d.toNat) = some (date, b)) :
    ownRebase p [d] s =
      (s.setDistricts (tput s.districts d.toNat (rebased b r)), ⟨.ok, be16 date ++ be32 b⟩) := by
  simp only [ownRebase, if_neg (Nat.not_lt.2 index), found, if_neg learnt, newest]

theorem ownRelearn_ok (index : d.toNat ≤ 63) (found : districtOf s d.toNat = some (e, r)) :
    ownRelearn p [d] s = (s.setDistricts (tput s.districts d.toNat (relearning r)), ⟨.ok, []⟩) := by
  simp only [ownRelearn, if_neg (Nat.not_lt.2 index), found]

/-- The three requests that name one district alone. -/
theorem oneDistrict_of_kind (hi : requestOf i = some (p, k)) (hk : k ∈ [0x11, 0x12, 0x13]) :
    i = .rebase p ∨ i = .relearn p ∨ i = .dmaStatus p := by
  cases i with
  | rebase => cases hi; exact .inl rfl
  | relearn => cases hi; exact .inr (.inl rfl)
  | dmaStatus => cases hi; exact .inr (.inr rfl)
  | readings | timeSet | timeGet | editOpen | editMeter | editMeterDrop | editDma | editDmaDrop | editNight | editCommit
    | editDiscard | configRead | suspend | resume | suspendList | leakAck | meterStatus | nightRead | eventRead
    | flagClear
    | flagMask | paramSetDaylightSaving | paramSetPortSettings | partStatus =>
    cases hi
    exact absurd hk (by decide)
  | _ => cases hi

theorem ownerOf_oneDistrict_range (hi : i = .rebase p ∨ i = .relearn p ∨ i = .dmaStatus p) (far : 63 < d.toNat) :
    ownerOf i p [d] s = (s, refusal .range) := by
  rcases hi with rfl | rfl | rfl
  · exact if_pos far
  · exact if_pos far
  · exact if_pos far

theorem ownerOf_oneDistrict_unknown (hi : i = .rebase p ∨ i = .relearn p ∨ i = .dmaStatus p) (index : d.toNat ≤ 63)
    (empty : districtOf s d.toNat = none) : ownerOf i p [d] s = (s, refusal .unknownDma) := by
  rcases hi with rfl | rfl | rfl
  · simp only [ownerOf, ownRebase, if_neg (Nat.not_lt.2 index), empty]
  · simp only [ownerOf, ownRelearn, if_neg (Nat.not_lt.2 index), empty]
  · simp only [ownerOf, ownDmaStatus, if_neg (Nat.not_lt.2 index), empty]

/-- Settles O32: REBASE goes by the newest assessed record of the ring, RELEARN by nothing but the district. -/
theorem rebaseAndRelearn : Obligations.RebaseAndRelearn := by
  refine ⟨fun s f d e r index entry runtime => ⟨fun taking => ⟨fun nights => ?_,
      fun older x newer l learnt ring assessed leak rest => ?_⟩,
    fun taking => ?_⟩, fun s p f rest i k ready hi kind hk role => ?_⟩
  · have found : districtOf (s.takeFrame .b) d.toNat = some (e, r) := districtOf_eq_some entry runtime
    exact exec_of_taking taking rfl trivial List.mem_cons_self
      (ownRebase_noNight (p := .b) index found (nights.imp_right newestAssessed_eq_none))
  · have found : districtOf (s.takeFrame .b) d.toNat = some (e, r) := districtOf_eq_some entry runtime
    refine exec_of_taking taking rfl trivial List.mem_cons_self (ownRebase_ok (p := .b) index found learnt ?_)
    exact (congrArg newestAssessed ring).trans (newestAssessed_eq_some assessed leak rest)
  · have found : districtOf (s.takeFrame .b) d.toNat = some (e, r) := districtOf_eq_some entry runtime
    exact exec_of_taking taking rfl trivial List.mem_cons_self (ownRelearn_ok (p := .b) index found)
  · have one := oneDistrict_of_kind hi hk
    have item : ItemFits i f := by rcases one with rfl | rfl | rfl <;> trivial
    have answered {x : Status} (answer : ownerOf i p f.payload (s.takeFrame p) = (s.takeFrame p, refusal x)) :
        exec i s = .next (replied s p f (s.takeFrame p) x []) := exec_of_answer hi ready kind item role answer
    refine ⟨fun wrong => answered (ownerOf_format hi ?_ ?_), fun d payload => ⟨fun far => answered ?_,
        fun index empty => answered ?_⟩⟩
    · fin_cases hk <;> exact wrong
    · rcases one with rfl | rfl | rfl <;> rfl
    · rw [payload]
      exact ownerOf_oneDistrict_range one far
    · rw [payload]
      exact ownerOf_oneDistrict_unknown one index (districtOf_eq_none (s := s.takeFrame p) empty)

/-! ### SUSPEND (R138, R139) -/

theorem untilInRange_iff {c : NightCycle} {u : Nat} : untilInRange c u = true ↔
    ∃ n, referenceNight c = some n ∧ n ≤ u ∧ u ≤ n + 30 ∧ u ≤ 36524 := by
  unfold untilInRange
  cases referenceNight c with
  | none => simp
  | some n =>
    show decide (n ≤ u ∧ u ≤ n + 30 ∧ u ≤ Config.lastDay) = true ↔ _
    rw [decide_eq_true_iff]
    simp only [Config.lastDay, Option.some.injEq, exists_eq_left']

variable {a1 a0 u1 u0 : Octet} {m : Nat} {entry : MeterEntry} {payload : List Octet}

/-- Where SUSPEND's first three checks pass, it lists the meter unless the list is full. -/
theorem ownSuspend_eq (valid : s.calendar.valid = true) (inRange : untilInRange s.calendar.cycle (u16 u1 u0) = true)
    (found : meterAt s.config.active.meters (u16 a1 a0) = some (m, entry)) :
    let suspended := markSuspended m (s.setSuspensions (tput s.suspensions m ⟨u16 u1 u0, p⟩))
    ownSuspend p [a1, a0, u1, u0] s =
      if tget s.suspensions m = none ∧ 16 ≤ s.suspensions.length then (s, refusal .full)
      else (suspended, ⟨.ok, [octFlag (tget s.suspensions m).isSome, octFlag (hasIdx suspended.intake.suspended m)] ++
        laySuspension m entry.address ⟨u16 u1 u0, p⟩⟩) := by
  intro suspended
  have full : ((!(tget s.suspensions m).isSome && decide (Config.suspensionCapacity ≤ s.suspensions.length)) = true) =
      (tget s.suspensions m = none ∧ 16 ≤ s.suspensions.length) := by
    rw [Bool.and_eq_true, Bool.not_eq_true', decide_eq_true_iff, Option.isSome_eq_false_iff,
      Option.isNone_iff_eq_none, Config.suspensionCapacity]
  simp only [ownSuspend, valid, inRange, found, full, Bool.not_true, Bool.false_eq_true, if_false]
  rfl

theorem ownSuspend_noTime (invalid : s.calendar.valid = false) :
    ownSuspend p [a1, a0, u1, u0] s = (s, refusal .noTime) := by
  simp only [ownSuspend, invalid, Bool.not_false, if_true]

theorem ownSuspend_range (valid : s.calendar.valid = true)
    (outside : untilInRange s.calendar.cycle (u16 u1 u0) = false) :
    ownSuspend p [a1, a0, u1, u0] s = (s, refusal .range) := by
  simp only [ownSuspend, valid, outside, Bool.not_true, Bool.not_false, Bool.false_eq_true, if_false, if_true]

theorem ownSuspend_unknownMeter (valid : s.calendar.valid = true)
    (inRange : untilInRange s.calendar.cycle (u16 u1 u0) = true)
    (unknown : meterAt s.config.active.meters (u16 a1 a0) = none) :
    ownSuspend p [a1, a0, u1, u0] s = (s, refusal .unknownMeter) := by
  simp only [ownSuspend, valid, inRange, unknown, Bool.not_true, Bool.false_eq_true, if_false]

theorem mem_suspenders (h : p ≠ .a) : p ∈ roleTable 0x0D := mem_editors h

/-- In OPEN and GRACE the meter is marked (R139). -/
theorem markSuspended_of_inWindow (h : ∃ n, InWindow s n) :
    markSuspended m s = s.setIntake { s.intake with suspended := insertIdx s.intake.suspended m } := by
  obtain ⟨n, hn⟩ := h
  unfold markSuspended
  rw [filingPlan_eq_some.2 hn]

theorem markSuspended_of_outside (h : ∀ n, ¬ InWindow s n) : markSuspended m s = s := by
  unfold markSuspended
  rw [Option.eq_none_iff_forall_ne_some.2 fun n hn => h n (filingPlan_eq_some.1 hn)]

/-- Settles O35: the checks in order, and the mark by the phase. -/
theorem suspendListsTheMeter : Obligations.SuspendListsTheMeter := by
  intro s p f payload taking suspender refuses
  have answered {t : State} {x : Status} {out : List Octet}
      (answer : ownSuspend p payload (s.takeFrame p) = (t, ⟨x, out⟩)) :
      exec (.suspend p) s = .next (replied s p f t x out) :=
    exec_of_taking (kind := 0x0D) taking rfl trivial (mem_suspenders suspender) answer
  refine ⟨fun wrong => answered (ownerOf_format (i := .suspend p) rfl wrong rfl), ?_⟩
  rintro a1 a0 u1 u0 rfl u reference inRange
  have named : referenceNight s.calendar.cycle = reference := by
    show referenceNight s.calendar.cycle = match s.calendar.cycle with
      | .opened n | .grace n | .day (some n) => some n.date
      | .settling n => some (n.date + 1)
      | .day none | .halted => none
    unfold referenceNight
    rcases s.calendar.cycle with _ | (_ | _) | _ | _ | _ <;> rfl
  have ranges : untilInRange s.calendar.cycle u = true ↔ inRange := by
    rw [untilInRange_iff, named]
  refine ⟨fun invalid => answered (ownSuspend_noTime (s := s.takeFrame p) invalid),
    fun valid outside => answered (ownSuspend_range (s := s.takeFrame p) valid
      (Bool.eq_false_iff.2 fun h => outside (ranges.1 h))),
    fun valid inside unknown => answered (ownSuspend_unknownMeter (s := s.takeFrame p) valid (ranges.2 inside) unknown),
    fun m e valid inside found => ?_⟩
  have suspends := ownSuspend_eq (s := s.takeFrame p) (p := p) valid (ranges.2 inside) found
  refine ⟨fun unlisted full => answered (suspends.trans (if_pos ⟨unlisted, full⟩)), fun room => ?_⟩
  have notFull : ¬ (tget s.suspensions m = none ∧ 16 ≤ s.suspensions.length) := by
    rintro ⟨unlisted, full⟩
    rw [unlisted] at room
    exact room.elim nofun fun h => Nat.not_lt.2 full h
  intro listed replaced entry
  have accepted : ownSuspend p [a1, a0, u1, u0] (s.takeFrame p) = (markSuspended m listed,
      ⟨.ok, [replaced, octFlag (hasIdx (markSuspended m listed).intake.suspended m)] ++ entry⟩) :=
    suspends.trans (if_neg notFull)
  have told {suspended : IdxSet} {mark : Octet} (h : octFlag (hasIdx suspended m) = mark) (x : State) :
      (x, (⟨.ok, [replaced, octFlag (hasIdx suspended m)] ++ entry⟩ : Answer)) =
        (x, ⟨.ok, [replaced, mark] ++ entry⟩) := by rw [h]
  refine ⟨fun current => answered ?_, fun outside => answered ?_⟩
  · rw [markSuspended_of_inWindow (s := listed) (m := m) current] at accepted
    exact accepted.trans (told (if_pos ((hasIdx_iff _ _).2 ((mem_insertIdx _ _ _).2 (.inl rfl)))) _)
  · have marked : markSuspended m listed = listed := markSuspended_of_outside fun n hn =>
      hn.elim (outside n).1 (outside n).2
    rw [marked] at accepted
    refine accepted.trans (told ?_ _)
    simp only [octFlag, hasIdx_iff]
    rfl

end Sys2Proof.Machine
end

section
/-!
PROOFS. The reads that name a meter, a district or a night (sections 1.5, 5.4 and 8.3): what they answer, octet
by octet. -/

namespace Sys2Proof.Machine

variable {s : State} {p : Port} {m : Nat} {d age i1 i0 : Octet} {e : DistrictEntry} {r : DistrictRuntime}
  {meter : MeterEntry}

/-! ### Octets -/

theorem orAbsent_eq_elim {α : Type} (absent : List Octet) (f : α → List Octet) (o : Option α) :
    orAbsent absent f o = o.elim absent f := by
  cases o <;> rfl

theorem length_elim {α : Type} {n : Nat} {absent : List Octet} {f : α → List Octet} (none : absent.length = n)
    (some : ∀ x, (f x).length = n) (o : Option α) : (o.elim absent f).length = n := by
  cases o with
  | none => exact none
  | some x => exact some x

theorem toNat_hasIdx (l : IdxSet) (k : Nat) : (hasIdx l k).toNat = if k ∈ l then 1 else 0 := by
  unfold hasIdx
  by_cases h : k ∈ l
  · rw [if_pos h, decide_eq_true h]
    rfl
  · rw [if_neg h, decide_eq_false h]
    rfl

theorem mul_toNat_eq_ite (b : Bool) (n : Nat) : n * b.toNat = if b then n else 0 := by
  cases b
  · exact Nat.mul_zero n
  · exact Nat.mul_one n

/-! ### METER_STATUS (R27) -/

theorem ownMeterStatus_range (far : 255 < u16 i1 i0) : ownMeterStatus p [i1, i0] s = (s, refusal .range) :=
  if_pos far

theorem ownMeterStatus_unknownMeter (index : u16 i1 i0 ≤ 255) (empty : tget s.config.active.meters (u16 i1 i0) = none) :
    ownMeterStatus p [i1, i0] s = (s, refusal .unknownMeter) := by
  simp only [ownMeterStatus, if_neg (Nat.not_lt.2 index), empty]

theorem ownMeterStatus_ok (index : u16 i1 i0 ≤ 255) (found : tget s.config.active.meters (u16 i1 i0) = some meter) :
    ownMeterStatus p [i1, i0] s = (s, ⟨.ok, be16 meter.address ++
      [oct (kindCode meter.kind), oct (conditionCode (runtimeOf s.intake (u16 i1 i0)).condition),
        oct (runtimeOf s.intake (u16 i1 i0)).silentNights, marksOctet s.intake (u16 i1 i0),
        oct (statusSlots s (u16 i1 i0)).length] ++ (statusSlots s (u16 i1 i0)).flatMap laySlot⟩) := by
  simp only [ownMeterStatus, if_neg (Nat.not_lt.2 index), found]

theorem kindCode_octet (k : MeterKind) : oct (kindCode k) = if k = .pressure then 1 else 0 := by
  cases k <;> rfl

theorem conditionCode_octet (c : Condition) : oct (conditionCode c) = if c = .silent then 1 else 0 := by
  cases c <;> rfl

/-! ### DMA_STATUS (R118) and NIGHT_READ (R150) -/

theorem ownDmaStatus_ok (index : d.toNat ≤ 63) (found : districtOf s d.toNat = some (e, r)) :
    ownDmaStatus p [d] s = (s, ⟨.ok, layStatus e r⟩) := by
  simp only [ownDmaStatus, if_neg (Nat.not_lt.2 index), found]

theorem ownNightRead_range (far : 63 < d.toNat ∨ 31 < age.toNat) : ownNightRead p [d, age] s = (s, refusal .range) :=
  if_pos far

theorem not_far (index : d.toNat ≤ 63) (old : age.toNat ≤ 31) : ¬ (63 < d.toNat ∨ 31 < age.toNat) :=
  not_or.2 ⟨Nat.not_lt.2 index, Nat.not_lt.2 old⟩

theorem ownNightRead_unknownDma (index : d.toNat ≤ 63) (old : age.toNat ≤ 31)
    (empty : tget s.config.active.districts d.toNat = none) :
    ownNightRead p [d, age] s = (s, refusal .unknownDma) := by
  simp only [ownNightRead, if_neg (not_far index old), empty]

theorem ownNightRead_noNight (index : d.toNat ≤ 63) (old : age.toNat ≤ 31)
    (found : tget s.config.active.districts d.toNat = some e)
    (none : recordAt (ringOf s.history d.toNat) age.toNat = none) :
    ownNightRead p [d, age] s = (s, ⟨.noNight, [oct (ringOf s.history d.toNat).length]⟩) := by
  simp only [ownNightRead, if_neg (not_far index old), found, none]

theorem ownNightRead_ok {x : NightRecord} (index : d.toNat ≤ 63) (old : age.toNat ≤ 31)
    (found : tget s.config.active.districts d.toNat = some e)
    (record : recordAt (ringOf s.history d.toNat) age.toNat = some x) :
    ownNightRead p [d, age] s = (s, ⟨.ok, [oct (ringOf s.history d.toNat).length] ++ layRecord x⟩) := by
  simp only [ownNightRead, if_neg (not_far index old), found, record]

theorem recordAt_eq_none {ring : List NightRecord} {a : Nat} (h : ring.length ≤ a) : recordAt ring a = none := by
  unfold recordAt
  rw [List.getElem?_eq_none_iff, List.length_reverse]
  exact h

/-- A record's age is the number of newer records. -/
theorem recordAt_append (older newer : List NightRecord) (x : NightRecord) :
    recordAt (older ++ x :: newer) newer.length = some x := by
  unfold recordAt
  rw [List.reverse_append, List.reverse_cons, List.append_assoc, List.singleton_append,
    List.getElem?_append_right (by rw [List.length_reverse]), List.length_reverse, Nat.sub_self]
  rfl

/-- A night record is 32 octets. -/
theorem length_layRecord (x : NightRecord) : (layRecord x).length = 32 := by
  have wide (o : Option Nat) : (o.elim (be32 0xFFFFFFFF) be32).length = 4 :=
    length_elim (f := be32) rfl (fun _ => rfl) o
  have signed : (x.mnf.elim (be32 0x80000000) beInt32).length = 4 :=
    length_elim (f := beInt32) rfl (fun _ => rfl) x.mnf
  have pressure : (x.pavg.elim (be16 0) be16).length = 2 :=
    length_elim (f := be16) rfl (fun _ => rfl) x.pavg
  have position : (x.minPosition.elim [0xFF] fun j => [oct j]).length = 1 :=
    length_elim (f := fun j => [oct j]) rfl (fun _ => rfl) x.minPosition
  simp only [layRecord, orAbsent_eq_elim, List.length_append, wide, signed, pressure, position]
  rfl

/-- Settles O38: each read names its item or refuses, and lays out what stands. -/
theorem indexedReadsChangeNothing : Obligations.IndexedReadsChangeNothing := by
  intro s p f answers
  have role {k : Nat} (h : roleTable k = [.a, .b, .c]) : p ∈ roleTable k := h ▸ mem_anyPort p
  refine ⟨fun i1 i0 taking => ?_, fun d e r taking index entry runtime => ?_, fun d age taking => ?_⟩
  · have answered {x : Status} {out : List Octet}
        (answer : ownMeterStatus p [i1, i0] (s.takeFrame p) = (s.takeFrame p, ⟨x, out⟩)) :
        answers (.meterStatus p) x out :=
      exec_of_taking (i := .meterStatus p) (kind := 0x14) taking rfl trivial (role rfl) answer
    refine ⟨fun far => answered (ownMeterStatus_range far),
      fun index empty => answered (ownMeterStatus_unknownMeter (s := s.takeFrame p) index empty),
      fun e index found => ?_⟩
    intro m r slots
    have status := answered (ownMeterStatus_ok (s := s.takeFrame p) index found)
    have named : statusSlots (s.takeFrame p) m = slots := by
      show _ = match s.calendar.cycle with
        | .opened n | .grace n | .settling n => (List.range n.length).map (slotAt s.intake.store m)
        | .halted | .day _ => []
      show (match currentPlan s.calendar.cycle with
        | some p => (List.range p.length).map (slotAt s.intake.store m)
        | none => []) = _
      cases s.calendar.cycle <;> rfl
    have marks : marksOctet s.intake m = oct ((if m ∈ s.intake.heard then 1 else 0) +
        2 * (if m ∈ s.intake.suspended then 1 else 0) + 4 * (if m ∈ s.intake.rangeReported then 1 else 0)) := by
      simp only [marksOctet, toNat_hasIdx]
    have lay : laySlot = fun x => match x with
        | .empty => [0, 0, 0]
        | .filled v => [1] ++ be16 v
        | .conflict => [2, 0, 0]
        | .estimated v => [3] ++ be16 v := by
      funext x
      cases x <;> rfl
    refine status.trans (congrArg (fun out => Host.Outcome.next (replied s p f (s.takeFrame p) .ok out)) ?_)
    show be16 e.address ++ [oct (kindCode e.kind), oct (conditionCode r.condition), oct r.silentNights,
      marksOctet s.intake m, oct (statusSlots (s.takeFrame p) m).length] ++
      (statusSlots (s.takeFrame p) m).flatMap laySlot = _
    rw [named, kindCode_octet, conditionCode_octet, marks, lay] <;> rfl
  · refine (exec_of_taking (i := .dmaStatus p) (kind := 0x13) taking rfl trivial (role rfl)
      (ownDmaStatus_ok (s := s.takeFrame p) (p := p) index (districtOf_eq_some entry runtime))).trans
      (congrArg (fun out => Host.Outcome.next (replied s p f (s.takeFrame p) .ok out)) ?_)
    unfold layStatus
    cases r.baseline <;> cases r.record <;> cases r.lastSettled <;> rfl
  · have answered {x : Status} {out : List Octet}
        (answer : ownNightRead p [d, age] (s.takeFrame p) = (s.takeFrame p, ⟨x, out⟩)) : answers (.nightRead p) x out :=
      exec_of_taking (i := .nightRead p) (kind := 0x15) taking rfl trivial (role rfl) answer
    intro ring absent bit result reason alarm conditions octets
    have resultOf (x : NightRecord) : oct (resultCode x.result) = result x := by
      dsimp only [result]
      cases x.result <;> rfl
    have reasonOf (x : NightRecord) : oct (reasonCode x.reason) = reason x := by
      dsimp only [reason]
      rcases x.reason with _ | _ | _ | _ <;> rfl
    have alarmOf (x : NightRecord) : oct (alarmCode x.alarmAfter) = alarm x := by
      dsimp only [alarm]
      cases x.alarmAfter <;> rfl
    have bitOf (b : Bool) (n : Nat) : bit b n = n * b.toNat := (mul_toNat_eq_ite b n).symm
    have conditionsOf (c : Conditions) : conditionOctet c = conditions c := by
      simp only [conditions, bitOf, Nat.one_mul] <;> rfl
    have laid (x : NightRecord) : layRecord x = octets x := by
      have position : x.minPosition.elim [0xFF] (fun j => [oct j]) = [x.minPosition.elim 0xFF oct] := by
        cases x.minPosition <;> rfl
      simp only [layRecord, orAbsent_eq_elim, resultOf, reasonOf, conditionsOf, alarmOf, position] <;> rfl
    refine ⟨fun x => laid x ▸ length_layRecord x, fun far => answered (ownNightRead_range far),
      fun index old empty => answered (ownNightRead_unknownDma (s := s.takeFrame p) index old empty),
      fun index old present => ?_⟩
    obtain ⟨e, found⟩ := Option.isSome_iff_exists.1 present
    refine ⟨fun short => answered (ownNightRead_noNight (s := s.takeFrame p) index old found (recordAt_eq_none short)),
      fun older x newer split length => ?_⟩
    have record : recordAt (ringOf (s.takeFrame p).history d.toNat) age.toNat = some x := by
      rw [show ringOf (s.takeFrame p).history d.toNat = _ from split, ← length]
      exact recordAt_append older newer x
    rw [← laid x]
    exact answered (ownNightRead_ok (s := s.takeFrame p) index old found record)

end Sys2Proof.Machine
end

section
/-!
PROOFS. CONFIG_READ (section 2.7), the flags, the masks and the attention line (section 10.4).
-/

namespace Sys2Proof.Machine

variable {s t : State} {p : Port} {f : Frame} {set item i1 i0 o : Octet} {name : SetName} {it : ItemName}
  {c : ConfigSet}
  {n i : Nat} {payload : List Octet}

/-! ### CONFIG_READ (R51) -/

theorem setOfCode_eq_none (h : 2 < n) : setOfCode n = none := by
  obtain ⟨k, rfl⟩ := Nat.exists_eq_add_of_le' h
  rfl

theorem itemOfCode_eq_none (h : 3 < n) : itemOfCode n i = none := by
  obtain ⟨k, rfl⟩ := Nat.exists_eq_add_of_le' h
  rfl

/-- An item code of the table names an item, whose index is to lie in its range. -/
theorem itemOfCode_of_le (h : n ≤ 3) : ∃ it, itemOfCode n i = some it ∧
    (itemInRange it = true ↔ ¬ ((n = 0 ∧ 255 < i) ∨ (n = 1 ∧ 63 < i))) := by
  match n, h with
  | 0, _ => exact ⟨_, rfl, by simp [itemInRange]⟩
  | 1, _ => exact ⟨_, rfl, by simp [itemInRange]⟩
  | 2, _ => exact ⟨_, rfl, by simp [itemInRange]⟩
  | 3, _ => exact ⟨_, rfl, by simp [itemInRange]⟩

theorem ownConfigRead_format (h : 2 < set.toNat ∨ 3 < item.toNat) :
    ownConfigRead p [set, item, i1, i0] s = (s, refusal .format) := by
  rcases h with h | h
  · simp only [ownConfigRead, setOfCode_eq_none h]
  · simp only [ownConfigRead, itemOfCode_eq_none h]
    cases setOfCode set.toNat <;> rfl

/-- The set that a request names stands, and an answer from it leaves state t: reading the own staging set restarts the
hold's timer (R43). -/
def Reads (s : State) (p : Port) (name : SetName) (c : ConfigSet) (t : State) : Prop :=
  match name with
  | .active => c = s.config.active ∧ t = s
  | .pending => ∃ pd, s.config.pending = some pd ∧ c = pd.config ∧ t = s
  | .staging => ∃ h, s.config.hold = some h ∧ h.port = p ∧ c = h.staging ∧ t = s.setHold (some { h with timer := 300 })

section
variable (named : setOfCode set.toNat = some name) (asked : itemOfCode item.toNat (u16 i1 i0) = some it)
include named asked

theorem ownConfigRead_range (far : itemInRange it = false) :
    ownConfigRead p [set, item, i1, i0] s = (s, refusal .range) := by
  simp only [ownConfigRead, named, asked, far, Bool.not_false, if_true]

/-- A set that stands answers the item. -/
theorem ownConfigRead_reads (index : itemInRange it = true) (reads : Reads s p name c t) :
    ownConfigRead p [set, item, i1, i0] s = answerItem s.config.generation c it s t := by
  simp only [ownConfigRead, named, asked, index, Bool.not_true, Bool.false_eq_true, if_false]
  cases name with
  | active =>
    obtain ⟨rfl, rfl⟩ := reads
    rfl
  | pending =>
    obtain ⟨pd, pending, rfl, rfl⟩ := reads
    simp only [pending]
  | staging =>
    obtain ⟨h, hold, own, rfl, rfl⟩ := reads
    simp only [heldBy_eq_some.2 ⟨hold, own⟩]
    rfl

end

theorem ownConfigRead_notHolder (named : setOfCode set.toNat = some .staging)
    (asked : itemOfCode item.toNat (u16 i1 i0) = some it) (index : itemInRange it = true)
    (other : ∀ h, s.config.hold = some h → h.port ≠ p) :
    ownConfigRead p [set, item, i1, i0] s = (s, refusal .notHolder) := by
  have none : heldBy s p = none := heldBy_eq_none.2 fun ⟨h, hold, own⟩ => other h hold own
  simp only [ownConfigRead, named, asked, index, none, Bool.not_true, Bool.false_eq_true, if_false]

theorem ownConfigRead_noPending (named : setOfCode set.toNat = some .pending)
    (asked : itemOfCode item.toNat (u16 i1 i0) = some it) (index : itemInRange it = true)
    (absent : s.config.pending = none) :
    ownConfigRead p [set, item, i1, i0] s = (s, ⟨.ok, be16 s.config.generation.toNat ++ [0]⟩) := by
  simp only [ownConfigRead, named, asked, index, absent, Bool.not_true, Bool.false_eq_true, if_false]

theorem answerItem_ok {generation : Generation} {content : List Octet} (h : readItem c it = .ok content) :
    answerItem generation c it s t = (t, ⟨.ok, be16 generation.toNat ++ [1] ++ content⟩) := by
  unfold answerItem
  rw [h]

theorem answerItem_error {generation : Generation} {x : Status} (h : readItem c it = .error x) :
    answerItem generation c it s t = (s, refusal x) := by
  unfold answerItem
  rw [h]

theorem readItem_meter_none (h : tget c.meters i = none) : readItem c (.meter i) = .error .unknownMeter := by
  simp only [readItem, h]

theorem readItem_meter {e : MeterEntry} (h : tget c.meters i = some e) :
    readItem c (.meter i) = .ok (layMeter i e) := by
  simp only [readItem, h]

theorem readItem_dma_none (h : tget c.districts i = none) : readItem c (.dma i) = .error .unknownDma := by
  simp only [readItem, h]

theorem readItem_dma {e : DistrictEntry} (h : tget c.districts i = some e) :
    readItem c (.dma i) = .ok (layDistrict i e) := by
  simp only [readItem, h]

/-- Settles O39: the set and the item named decide the answer. -/
theorem configReadAnswersAnItem : Obligations.ConfigReadAnswersAnItem := by
  intro s p f set item i1 i0 taking i generation refuses badIndex
  have answered {t : State} {x : Status} {out : List Octet}
      (answer : ownConfigRead p [set, item, i1, i0] (s.takeFrame p) = (t, ⟨x, out⟩)) :
      exec (.configRead p) s = .next (replied s p f t x out) :=
    exec_of_taking (i := .configRead p) (kind := 0x0C) taking rfl trivial (mem_anyPort p) answer
  have code {x : Octet} {n : Nat} (h : x.toNat = n) (o : Octet) (ho : o.toNat = n) : x = o :=
    BitVec.eq_of_toNat_eq (h.trans ho.symm)
  have isItem {it : ItemName} (h : item.toNat ≤ 3) (asked : itemOfCode item.toNat i = some it) :
      itemInRange it = true ↔ ¬ badIndex := by
    obtain ⟨it', asked', ranges⟩ := itemOfCode_of_le (i := i) h
    obtain rfl := Option.some.inj (asked.symm.trans asked')
    rw [ranges]
    refine not_congr (or_congr (and_congr_left fun _ => ?_) (and_congr_left fun _ => ?_))
    · exact ⟨fun h => code h 0 rfl, fun h => h ▸ rfl⟩
    · exact ⟨fun h => code h 1 rfl, fun h => h ▸ rfl⟩
  refine ⟨fun wrong => answered (ownConfigRead_format wrong), fun hset hitem bad => ?_,
    fun hset hitem good other => ?_, fun hset hitem good absent => ?_, fun c t stands => ?_⟩
  · obtain ⟨it, asked, -⟩ := itemOfCode_of_le (i := i) hitem
    obtain ⟨name, named⟩ : ∃ name, setOfCode set.toNat = some name := by
      interval_cases set.toNat
      exacts [⟨_, rfl⟩, ⟨_, rfl⟩, ⟨_, rfl⟩]
    exact answered (ownConfigRead_range named asked (Bool.eq_false_iff.2 fun h => (isItem hitem asked).1 h bad))
  · obtain ⟨it, asked, -⟩ := itemOfCode_of_le (i := i) hitem
    subst hset
    exact answered (ownConfigRead_notHolder (s := s.takeFrame p) rfl asked ((isItem hitem asked).2 good) other)
  · obtain ⟨it, asked, -⟩ := itemOfCode_of_le (i := i) hitem
    subst hset
    exact answered (ownConfigRead_noPending (s := s.takeFrame p) rfl asked ((isItem hitem asked).2 good) absent)
  · obtain ⟨name, named, reads⟩ : ∃ name, setOfCode set.toNat = some name ∧ Reads (s.takeFrame p) p name c t := by
      rcases stands with ⟨rfl, hc, ht⟩ | ⟨rfl, ⟨pd, pending, hc⟩, ht⟩ | ⟨rfl, h, hold, own, hc, ht⟩
      · exact ⟨.active, rfl, hc, ht⟩
      · exact ⟨.pending, rfl, pd, pending, hc, ht⟩
      · exact ⟨.staging, rfl, h, hold, own, hc, ht⟩
    intro answers
    have given {it : ItemName} {content : List Octet} (asked : itemOfCode item.toNat i = some it)
        (index : itemInRange it = true) (h : readItem c it = .ok content) : answers content :=
      answered ((ownConfigRead_reads named asked index reads).trans (answerItem_ok h))
    have refused {it : ItemName} {x : Status} (asked : itemOfCode item.toNat i = some it)
        (index : itemInRange it = true) (h : readItem c it = .error x) : refuses x :=
      answered ((ownConfigRead_reads named asked index reads).trans (answerItem_error h))
    refine ⟨?_, ?_, ?_, ?_, ?_, ?_⟩
    · rintro rfl index h
      exact refused rfl (decide_eq_true index) (readItem_meter_none h)
    · rintro e rfl index h
      exact given rfl (decide_eq_true index) (readItem_meter h)
    · rintro rfl index h
      exact refused rfl (decide_eq_true index) (readItem_dma_none h)
    · rintro e rfl index h
      exact given rfl (decide_eq_true index) (readItem_dma h)
    · rintro rfl
      exact given rfl rfl rfl
    · rintro rfl
      exact given rfl rfl rfl

/-! ### Flags (R168, R169) -/

/-- The bits of an octet laid out from five flags. -/
theorem flagBits (a b c d e : Bool) :
    (oct (a.toNat + 2 * b.toNat + 4 * c.toNat + 8 * d.toNat + 16 * e.toNat)).getLsbD 0 = a ∧
    (oct (a.toNat + 2 * b.toNat + 4 * c.toNat + 8 * d.toNat + 16 * e.toNat)).getLsbD 1 = b ∧
    (oct (a.toNat + 2 * b.toNat + 4 * c.toNat + 8 * d.toNat + 16 * e.toNat)).getLsbD 2 = c ∧
    (oct (a.toNat + 2 * b.toNat + 4 * c.toNat + 8 * d.toNat + 16 * e.toNat)).getLsbD 3 = d ∧
    (oct (a.toNat + 2 * b.toNat + 4 * c.toNat + 8 * d.toNat + 16 * e.toNat)).getLsbD 4 = e ∧
    (oct (a.toNat + 2 * b.toNat + 4 * c.toNat + 8 * d.toNat + 16 * e.toNat)).toNat < 32 := by
  revert a b c d e
  decide

theorem evtFlag_iff : evtFlag s p = true ↔ s.events.next ≠ s.events.cursors.get p := by
  unfold evtFlag EventQueue.unread
  rw [decide_eq_true_iff, Nat.pos_iff_ne_zero, Ne, Ne, not_iff_not]
  constructor
  · intro h
    have : s.events.next - s.events.cursors.get p = 0 := BitVec.eq_of_toNat_eq h
    bv_omega
  · intro h
    rw [h, BitVec.sub_self]
    rfl

theorem leakFlag_iff : leakFlag s = true ↔ ∃ x ∈ s.districts, x.2.alarm = .leak := by
  simp only [leakFlag, inLeak, List.any_eq_true, decide_eq_true_eq]

theorem drives_iff {flag : Bool} {mask : Mask} {bit : Nat} :
    drives flag mask bit = true ↔ flag = true ∧ mask.getLsbD bit = false := by
  simp only [drives, Bool.and_eq_true, Bool.not_eq_true']

theorem ownFlagClear_ok (small : o.toNat ≤ 31) : ownFlagClear p [o] s =
    (s.setPort p ((s.port p).clearFlags o), ⟨.ok, layFlags (s.setPort p ((s.port p).clearFlags o)) p⟩) :=
  if_neg (Nat.not_lt.2 small)

theorem ownFlagMask_ok (small : o.toNat ≤ 31) : ownFlagMask p [o] s =
    (s.setPort p { s.port p with mask := BitVec.ofNat 4 o.toNat },
      ⟨.ok, layFlags (s.setPort p { s.port p with mask := BitVec.ofNat 4 o.toNat }) p⟩) :=
  if_neg (Nat.not_lt.2 small)

/-- Settles O42: each request acts on its own port's flags, and the octet's bits are the five flags. -/
theorem flagsMasksAndTheLine : Obligations.FlagsMasksAndTheLine := by
  intro s p
  refine ⟨fun f payload taking => ?_, fun on => ?_⟩
  · rcases taking with taking | taking
    · have clears : f.kind = 0x17 := taking.2.1
      have answered {t : State} {x : Status} {out : List Octet}
          (answer : ownFlagClear p payload (s.takeFrame p) = (t, ⟨x, out⟩)) :
          exec (.flagClear p) s = .next (replied s p f t x out) :=
        exec_of_taking (i := .flagClear p) (kind := 0x17) taking rfl trivial (mem_anyPort p) answer
      simp only [if_pos clears]
      refine ⟨fun wrong => answered (ownerOf_format (i := .flagClear p) rfl wrong rfl), ?_⟩
      rintro o rfl
      exact ⟨fun far => answered (if_pos far), fun small => answered (ownFlagClear_ok small)⟩
    · have masks : f.kind ≠ 0x17 := fun h => absurd (taking.2.1.symm.trans h) (by decide)
      have answered {t : State} {x : Status} {out : List Octet}
          (answer : ownFlagMask p payload (s.takeFrame p) = (t, ⟨x, out⟩)) :
          exec (.flagMask p) s = .next (replied s p f t x out) :=
        exec_of_taking (i := .flagMask p) (kind := 0x18) taking rfl trivial (mem_anyPort p) answer
      simp only [if_neg masks]
      refine ⟨fun wrong => answered (ownerOf_format (i := .flagMask p) rfl wrong rfl), ?_⟩
      rintro o rfl
      exact ⟨fun far => answered (if_pos far), fun small => answered (ownFlagMask_ok small)⟩
  · intro leak unread mask
    obtain ⟨evt, lost, leaks, link, time, small⟩ :=
      flagBits (evtFlag s p) (s.port p).lost (leakFlag s) (s.port p).link (timeFlag s)
    refine ⟨?_, (Bool.eq_iff_iff.1 evt).trans evtFlag_iff, lost, (Bool.eq_iff_iff.1 leaks).trans leakFlag_iff,
      link, time, small⟩
    unfold attentionLine
    simp only [on, Bool.true_and, Bool.or_eq_true, drives_iff, evtFlag_iff, leakFlag_iff, timeFlag, Bool.not_eq_true',
      or_assoc]
    rfl

end Sys2Proof.Machine
end

section
/-!
PROOFS. EVENT_READ and the append (sections 8.4 and 8.5), in a lawful queue.
-/

namespace Sys2Proof.Machine

variable {s t : State} {p : Port} {q : EventQueue} {start : Serial} {m : Nat}

/-! ### EVENT_READ (R153, R154) -/

/-- The serials from a start on, as distances behind the next serial. -/
theorem next_sub_eq_add {next start : Serial} {i : Nat} (h : i ≤ (next - start).toNat) :
    next - BitVec.ofNat 32 ((next - start).toNat - i) = start + BitVec.ofNat 32 i := by
  have split : BitVec.ofNat 32 (next - start).toNat =
      BitVec.ofNat 32 ((next - start).toNat - i) + BitVec.ofNat 32 i := by
    rw [← BitVec.ofNat_add, Nat.sub_add_cancel h]
  rw [BitVec.ofNat_toNat, BitVec.setWidth_eq] at split
  have ahead : next = start + (next - start) := by ring
  generalize BitVec.ofNat 32 ((next - start).toNat - i) = d at split ⊢
  rw [split] at ahead
  rw [ahead]
  ring

/-- The entry at place i of what is unread from a start. -/
theorem entriesFrom_serial (lawful : q.Lawful) (held : (q.next - start).toNat ≤ q.entries.length) {i : Nat}
    (h : i < (entriesFrom q start).length) : (entriesFrom q start)[i].serial = start + BitVec.ofNat 32 i := by
  have bound : i < (q.next - start).toNat := entriesFrom_length held ▸ h
  simp only [entriesFrom, List.getElem_drop]
  rw [lawful.serial, ← next_sub_eq_add (Nat.le_of_lt bound)]
  congr 2
  omega

theorem takeFrame_lost (s : State) (p : Port) : ((s.takeFrame p).port p).lost = (s.port p).lost ∧
    ((s.takeFrame p).port p).lostCount = (s.port p).lostCount := by
  rw [State.takeFrame_port_self]
  unfold PortState.adoptDue
  split <;> exact ⟨rfl, rfl⟩

/-- An accepted read splits the queue into what is older than its start, what it takes, and what is left. -/
theorem readEvents_spec (lawful : s.events.Lawful) (held : (s.events.next - start).toNat ≤ s.events.entries.length)
    (p : Port) (m : Nat) : ∃ older taken newer, s.events.entries = older ++ taken ++ newer ∧
      taken.length = min m (s.events.next - start).toNat ∧
      newer.length = (s.events.next - start).toNat - taken.length ∧
      (∀ i (h : i < taken.length), taken[i].serial = start + BitVec.ofNat 32 i) ∧
      readEvents p start m s = (s.setEvents { s.events with
          cursors := s.events.cursors.set p (start + BitVec.ofNat 32 taken.length) },
        ⟨.ok, [oct taken.length] ++ taken.flatMap layEvent ++
          [oct newer.length, octFlag (s.port p).lost, oct (s.port p).lostCount]⟩) := by
  have length := entriesFrom_length held
  have takes : ((entriesFrom s.events start).take m).length = min m (s.events.next - start).toNat := by
    rw [List.length_take, length]
  have leaves : ((entriesFrom s.events start).drop m).length =
      (s.events.next - start).toNat - ((entriesFrom s.events start).take m).length := by
    rw [List.length_drop, length, takes]
    omega
  refine ⟨s.events.entries.take (s.events.entries.length - (s.events.next - start).toNat),
    (entriesFrom s.events start).take m, (entriesFrom s.events start).drop m, ?_, takes, leaves, fun i h => ?_, ?_⟩
  · rw [List.append_assoc, List.take_append_drop]
    exact (List.take_append_drop _ _).symm
  · rw [List.getElem_take]
    exact entriesFrom_serial lawful held _
  · have unread : (takeEntries s.events p start m).1.unread p = ((entriesFrom s.events start).drop m).length := by
      show (s.events.next - (s.events.cursors.set p _).get p).toNat = _
      rw [PerPort.get_set_self, leaves]
      exact toNat_sub_add_ofNat (by rw [takes]; exact Nat.min_le_right _ _)
    rw [← unread]
    rfl

/-- Settles O40: an accepted read takes the oldest of what is unread from its start. -/
theorem eventReadMovesOneCursor : Obligations.EventReadMovesOneCursor := by
  intro s p f m form s3 s2 s1 s0 lawful taking q serial listed refuses
  have answered {t : State} {x : Status} {out : List Octet}
      (answer : ownEventRead p [m, form, s3, s2, s1, s0] (s.takeFrame p) = (t, ⟨x, out⟩)) :
      exec (.eventRead p) s = .next (replied s p f t x out) :=
    exec_of_taking (i := .eventRead p) (kind := 0x16) taking rfl trivial (mem_anyPort p) answer
  have isListed : startable s.events serial = true ↔ listed := by
    simp only [startable, Bool.or_eq_true, decide_eq_true_eq, List.any_eq_true]
    rfl
  have accepted (start : Serial) (held : (q.next - start).toNat ≤ q.entries.length)
      (reads : ownEventRead p [m, form, s3, s2, s1, s0] (s.takeFrame p) =
        readEvents p start m.toNat (s.takeFrame p)) :
      ∃ older taken newer, q.entries = older ++ taken ++ newer ∧
        taken.length = min m.toNat (q.next - start).toNat ∧
        newer.length = (q.next - start).toNat - taken.length ∧
        (∀ i (h : i < taken.length), taken[i].serial = start + BitVec.ofNat 32 i) ∧
        exec (.eventRead p) s = .next (replied s p f
          ((s.takeFrame p).setEvents { q with
            cursors := q.cursors.set p (start + BitVec.ofNat 32 taken.length) }) .ok
          ([oct taken.length] ++ taken.flatMap layEvent ++
            [oct newer.length, if (s.port p).lost then 1 else 0, oct (s.port p).lostCount])) := by
    obtain ⟨older, taken, newer, split, takes, leaves, serials, answer⟩ :=
      readEvents_spec (s := s.takeFrame p) lawful held p m.toNat
    rw [(takeFrame_lost s p).1, (takeFrame_lost s p).2] at answer
    exact ⟨older, taken, newer, split, takes, leaves, serials, answered (reads.trans answer)⟩
  refine ⟨fun far => answered ?_, fun known count => answered ?_, fun from_ least most absent => answered ?_,
    fun start least most starts => ?_⟩
  · exact (ownEventRead_eq ..).trans (if_pos far)
  · refine (ownEventRead_eq ..).trans ((if_neg (Nat.not_lt.2 known)).trans (if_pos ?_))
    exact count.imp_left fun (h : m = 0) => congrArg BitVec.toNat h
  · subst from_
    refine (ownEventRead_eq ..).trans ((if_neg (by decide)).trans ((if_neg (by omega)).trans
      ((if_neg (by decide)).trans ((if_neg fun h => absent (isListed.1 h)).trans ?_))))
    show (_, (⟨.range, be32 s.events.oldest.toNat ++ be32 s.events.next.toNat⟩ : Answer)) =
      (_, ⟨.range, be32 (match s.events.entries with
        | [] => s.events.next.toNat
        | e :: _ => e.serial.toNat) ++ be32 s.events.next.toNat⟩)
    unfold EventQueue.oldest
    cases s.events.entries <;> rfl
  · rcases starts with ⟨rfl, rfl⟩ | ⟨rfl, isIn, rfl⟩
    · refine accepted _ (lawful.2.2 p) ?_
      exact (ownEventRead_eq ..).trans ((if_neg (by decide)).trans ((if_neg (by omega)).trans (if_pos rfl)))
    · refine accepted _ (lawful.startable (isListed.2 isIn)) ?_
      exact (ownEventRead_eq ..).trans ((if_neg (by decide)).trans ((if_neg (by omega)).trans
        ((if_neg (by decide)).trans (if_pos (isListed.2 isIn)))))

/-! ### The append (R151, R152) -/

theorem shed_of_room (h : q.entries.length < 128) : q.shed = q := by
  unfold EventQueue.shed
  split
  · rfl
  · exact if_pos h

theorem shed_next (q : EventQueue) : q.shed.next = q.next := by
  unfold EventQueue.shed
  split
  · rfl
  · split <;> rfl

theorem makeRoom_of_room (h : s.events.entries.length < 128) : s.makeRoom = s := by
  unfold State.makeRoom
  split
  · rfl
  · exact if_pos h

/-- A full queue gives up its oldest entry, charged to the ports whose cursors pointed at it (R152, step 1). -/
theorem makeRoom_of_full {e : Event} {rest : List Event} (entries : s.events.entries = e :: rest)
    (full : s.events.entries.length = 128) (p : Port) :
    s.makeRoom.events.entries = rest ∧
    s.makeRoom.events.cursors.get p =
      moveCursor e.serial ({ s.events with entries := rest } : EventQueue).oldest (s.events.cursors.get p) ∧
    s.makeRoom.ports.get p = chargeLost e.serial (s.events.cursors.get p) (s.ports.get p) := by
  have noRoom : ¬ s.events.entries.length < Config.eventCapacity := by
    rw [full, Config.eventCapacity]
    omega
  unfold State.makeRoom
  simp only [entries] at noRoom ⊢
  rw [if_neg noRoom]
  cases p <;> exact ⟨rfl, rfl, rfl⟩

/-- Settles O41: a queue with room takes the entry at its end; a full one makes room first. -/
theorem appendKeepsTheNewest : Obligations.AppendKeepsTheNewest := by
  intro s kind subject night detail lawful t new
  have next : s.makeRoom.events.next = s.events.next := by
    rw [State.makeRoom_events, shed_next]
  have entries : t.events.entries = s.makeRoom.events.entries ++ [new] := by
    show s.makeRoom.events.entries ++ [⟨s.makeRoom.events.next, _, _, _, _⟩] = _
    rw [next]
  refine ⟨append_logged kind subject night detail rfl rfl, congrArg (· + 1) next, fun room => ?_,
    fun e rest held full => ?_⟩
  · have same := makeRoom_of_room room
    refine ⟨?_, congrArg (fun u => u.events.cursors) same, (congrArg State.ports same : s.makeRoom.ports = s.ports)⟩
    rw [entries, same]
  · obtain ⟨first, second⟩ := lawful.oldest_rest held full
    have follows : ({ s.events with entries := rest } : EventQueue).oldest = e.serial + 1 := by
      rw [second, first]
      show s.events.next - 127#32 = s.events.next - 128#32 + 1#32
      bv_omega
    refine ⟨?_, fun p => ?_⟩
    · rw [entries, (makeRoom_of_full held full .a).1]
    · obtain ⟨-, cursor, port⟩ := makeRoom_of_full held full p
      exact ⟨fun other => ⟨cursor.trans (if_neg other), port.trans (if_neg other)⟩,
        fun pointed => ⟨cursor.trans ((if_pos pointed).trans follows), port.trans (if_pos pointed)⟩⟩

end Sys2Proof.Machine
end

section
/-!
PROOFS. Frames and their CRC (section 9.2): a frame's octets are judged as that frame, and the CRC tells two
frames apart that differ in one octet, since the register is linear in what enters it.
-/

namespace Sys2Proof.Machine

variable {r r' : Crc} {o o' : Octet} {os l : List Octet} {u : Octet} {g : RxFrame} {f : Frame}

/-! ### The CRC register -/

/-- What a register bit shifted out adds to the register. -/
def crcFeedback (b : Bool) : Crc := if b then Config.crcPoly else 0

theorem crcFeedback_xor (a b : Bool) : crcFeedback (a ^^ b) = crcFeedback a ^^^ crcFeedback b := by
  cases a <;> cases b <;> rfl

theorem crcBit_eq (r : Crc) (b : Bool) : crcBit r b = (r <<< 1) ^^^ crcFeedback (r.msb ^^ b) := by
  unfold crcBit crcFeedback
  cases r.msb <;> cases b <;> simp

/-- The register is linear in its contents and in the bit that enters. -/
theorem crcBit_xor (r r' : Crc) (b b' : Bool) : crcBit (r ^^^ r') (b ^^ b') = crcBit r b ^^^ crcBit r' b' := by
  have feedback : ((r ^^^ r').msb ^^ (b ^^ b')) = ((r.msb ^^ b) ^^ (r'.msb ^^ b')) := by
    rw [BitVec.msb_xor]
    cases r.msb <;> cases r'.msb <;> cases b <;> cases b' <;> rfl
  rw [crcBit_eq, crcBit_eq, crcBit_eq, feedback, crcFeedback_xor, BitVec.shiftLeft_xor_distrib]
  ac_rfl

theorem crcOctet_xor (r r' : Crc) (o o' : Octet) :
    crcOctet (r ^^^ r') (o ^^^ o') = crcOctet r o ^^^ crcOctet r' o' := by
  unfold crcOctet
  generalize [7, 6, 5, 4, 3, 2, 1, 0] = places
  induction places generalizing r r' with
  | nil => rfl
  | cons i rest ih =>
    rw [List.foldl_cons, List.foldl_cons, List.foldl_cons, ← ih, BitVec.getLsbD_xor, crcBit_xor]

/-- No register but 0 becomes 0 by a bit of 0. -/
theorem crcBit_false_eq_zero (h : crcBit r false = 0) : r = 0 := by
  rw [crcBit_eq, Bool.xor_false] at h
  have low := congrArg (·.getLsbD 0) h
  cases hm : r.msb with
  | true =>
    rw [hm] at low
    simp [crcFeedback, Config.crcPoly] at low
  | false =>
    rw [hm] at h
    have shifted : r <<< 1 = 0 := by simpa [crcFeedback] using h
    have small := BitVec.msb_eq_false_iff_two_mul_lt.1 hm
    have := congrArg BitVec.toNat shifted
    simp only [BitVec.toNat_shiftLeft] at this
    apply BitVec.eq_of_toNat_eq
    simp at this ⊢
    omega

theorem crcOctet_zero_eq_zero (h : crcOctet r 0 = 0) : r = 0 := by
  unfold crcOctet at h
  revert h
  generalize [7, 6, 5, 4, 3, 2, 1, 0] = places
  induction places generalizing r with
  | nil => exact id
  | cons i rest ih =>
    intro h
    rw [List.foldl_cons, show (0 : Octet).getLsbD i = false from BitVec.getLsbD_zero] at h
    exact crcBit_false_eq_zero (ih h)

/-- No octet but 0 leaves a register of 0 at 0. -/
theorem eq_zero_of_crcOctet_zero (h : crcOctet 0 o = 0) : o = 0 := by
  revert o
  decide

theorem xor_eq_zero {w : Nat} {x y : BitVec w} (h : x ^^^ y = 0) : x = y :=
  BitVec.xor_eq_zero_iff.1 h

/-- Two registers that differ go on to differ. -/
theorem crcOctet_inj_register (h : crcOctet r o = crcOctet r' o) : r = r' := by
  refine xor_eq_zero (crcOctet_zero_eq_zero ?_)
  have difference := crcOctet_xor r r' o o
  rwa [h, BitVec.xor_self, BitVec.xor_self] at difference

/-- Two octets that differ leave different registers. -/
theorem crcOctet_inj_octet (h : crcOctet r o = crcOctet r o') : o = o' := by
  refine xor_eq_zero (eq_zero_of_crcOctet_zero ?_)
  have difference := crcOctet_xor r r o o'
  rwa [h, BitVec.xor_self, BitVec.xor_self] at difference

theorem foldl_crcOctet_inj (h : os.foldl crcOctet r = os.foldl crcOctet r') : r = r' := by
  induction os generalizing r r' with
  | nil => exact h
  | cons o rest ih => exact crcOctet_inj_register (ih h)

/-- The CRC tells apart two lists of octets that differ in one place. -/
theorem crc_inj_octet (h : crc (l ++ o :: os) = crc (l ++ o' :: os)) : o = o' := by
  unfold crc at h
  rw [List.foldl_append, List.foldl_append, List.foldl_cons, List.foldl_cons] at h
  exact crcOctet_inj_octet (foldl_crcOctet_inj h)

theorem crcOctets_inj (h : crcOctets os = crcOctets l) : crc os = crc l := by
  unfold crcOctets be16 at h
  obtain ⟨high, low⟩ := List.cons.inj h
  have low := List.head_eq_of_cons_eq low
  have high := congrArg BitVec.toNat high
  have low := congrArg BitVec.toNat low
  simp only [oct, BitVec.toNat_ofNat] at high low
  have := (crc os).isLt
  have := (crc l).isLt
  apply BitVec.eq_of_toNat_eq
  omega

/-! ### The judgement of a frame (R159) -/

/-- A frame is accepted when it is whole, long enough, addressed to the port, and ends with its CRC. -/
theorem judgeFrame_eq_accepted : judgeFrame u g = .accepted f ↔ g.condemned = false ∧ g.overlong = false ∧
    5 ≤ g.octets.length ∧ (g.octets.getD 0 0 = u ∨ g.octets.getD 0 0 = 0xFF) ∧
    g.octets.drop (g.octets.length - 2) = crcOctets (g.octets.take (g.octets.length - 2)) ∧ frameOf g.octets = f := by
  constructor
  · intro h
    unfold judgeFrame at h
    split at h
    · cases h
    rename_i whole
    split at h
    · cases h
    rename_i fits
    split at h
    · cases h
    rename_i long
    split at h
    · cases h
    rename_i addressed
    split at h
    · cases h
    rename_i good
    exact ⟨Bool.eq_false_iff.2 whole, Bool.eq_false_iff.2 fits, Nat.not_lt.1 long, by
      rwa [not_and_or, not_ne_iff, not_ne_iff] at addressed, not_ne_iff.1 good, FrameFate.accepted.inj h⟩
  · rintro ⟨whole, fits, long, addressed, good, rfl⟩
    unfold judgeFrame
    rw [if_neg (Bool.eq_false_iff.1 whole), if_neg (Bool.eq_false_iff.1 fits), if_neg (Nat.not_lt.2 long),
      if_neg fun h => addressed.elim h.1 h.2, if_neg (not_ne_iff.2 good)]

/-- A frame's octets are its body and its two CRC octets. -/
theorem octets_split (f : Frame) : f.octets.length - 2 = (f.addr :: f.kind :: f.tag :: f.payload).length ∧
    f.octets.take (f.octets.length - 2) = f.addr :: f.kind :: f.tag :: f.payload ∧
    f.octets.drop (f.octets.length - 2) = crcOctets (f.addr :: f.kind :: f.tag :: f.payload) := by
  have length : f.octets.length - 2 = (f.addr :: f.kind :: f.tag :: f.payload).length := by
    simp [Frame.octets, crcOctets, be16]
  rw [length]
  exact ⟨rfl, List.take_left, List.drop_left⟩

/-- Two accepted texts that differ in one octet agree in it. -/
theorem octet_eq_of_good {n : Nat} (long : 2 ≤ n) (length : (l ++ o :: os).length = n)
    (good : (l ++ o :: os).drop (n - 2) = crcOctets ((l ++ o :: os).take (n - 2)))
    (good' : (l ++ o' :: os).drop (n - 2) = crcOctets ((l ++ o' :: os).take (n - 2))) : o = o' := by
  have total : l.length + (os.length + 1) = n := by simpa using length
  by_cases body : l.length < n - 2
  · have cut (x : Octet) : (l ++ x :: os).take (n - 2) = l ++ x :: os.take (n - 3 - l.length) ∧
        (l ++ x :: os).drop (n - 2) = os.drop (n - 3 - l.length) := by
      have place : n - 2 = l.length + ((n - 3 - l.length) + 1) := by omega
      rw [place, List.take_length_add_append, List.drop_length_add_append]
      exact ⟨rfl, rfl⟩
    rw [(cut o).1, (cut o).2] at good
    rw [(cut o').1, (cut o').2] at good'
    exact crc_inj_octet (crcOctets_inj (good.symm.trans good'))
  · have same : (l ++ o :: os).take (n - 2) = (l ++ o' :: os).take (n - 2) := by
      rw [List.take_append_of_le_length (Nat.not_lt.1 body), List.take_append_of_le_length (Nat.not_lt.1 body)]
    have tails : (l ++ o :: os).drop (n - 2) = (l ++ o' :: os).drop (n - 2) := by rw [good, good', same]
    have whole : l ++ o :: os = l ++ o' :: os := by
      rw [← List.take_append_drop (n - 2) (l ++ o :: os), same, tails, List.take_append_drop]
    exact (List.cons.inj (List.append_cancel_left whole)).1

/-- Settles O45: a frame's octets pass each check, and the CRC of two accepted texts tells one octet apart. -/
theorem framesAreReadAsSent : Obligations.FramesAreReadAsSent := by
  refine ⟨fun u f addressed => judgeFrame_eq_accepted.2 ?_, fun u l r o o' f ne first g second => ?_, by decide +kernel⟩
  · obtain ⟨length, body, tail⟩ := octets_split f
    rw [body, tail]
    refine ⟨rfl, rfl, ?_, addressed, rfl, ?_⟩
    · simp [Frame.octets, crcOctets, be16]
    · unfold frameOf
      rw [body]
      rfl
  · obtain ⟨-, -, long, -, good, -⟩ := judgeFrame_eq_accepted.1 first
    obtain ⟨-, -, -, -, good', -⟩ := judgeFrame_eq_accepted.1 second
    have length : (l ++ o' :: r).length = (l ++ o :: r).length := by simp
    rw [show (RxFrame.mk (l ++ o' :: r) false false).octets.length = _ from length] at good'
    exact ne (octet_eq_of_good (Nat.le_trans (by omega) long) rfl good good')

end Sys2Proof.Machine
end

section
/-!
PROOFS. TIME_GET, SUSPEND_LIST and PART_STATUS (sections 3.1, 7.3 and 10.5): the date of an instant, and what
each read lays out.
-/

namespace Sys2Proof.Machine

variable {s : State} {p : Port} {y d t : Nat}

/-! ### The date of an instant (R53) -/

/-- A day lies in the year that it is said to lie in. -/
theorem yearOfDay_bounds (d : Nat) : 2000 ≤ yearOfDay d ∧ daysBeforeYear (yearOfDay d) ≤ d ∧
    d < daysBeforeYear (yearOfDay d + 1) := by
  simp only [yearOfDay, daysBeforeYear]
  split <;> omega

/-- The month and the day of month of a day counted from the first of a month, within the months that follow. -/
theorem monthAndDay_spec (fuel : Nat) {month rest : Nat} (first : 1 ≤ month)
    (h : dayOfDate y month 1 + rest < dayOfDate y (month + fuel + 1) 1) :
    month ≤ (monthAndDay y fuel month rest).1 ∧ (monthAndDay y fuel month rest).1 ≤ month + fuel ∧
    1 ≤ (monthAndDay y fuel month rest).2 ∧
    (monthAndDay y fuel month rest).2 ≤ monthLength y (monthAndDay y fuel month rest).1 ∧
    dayOfDate y (monthAndDay y fuel month rest).1 (monthAndDay y fuel month rest).2 = dayOfDate y month 1 + rest := by
  have next := dayOfDate_next_month y month first
  induction fuel generalizing month rest with
  | zero =>
    refine ⟨Nat.le_refl _, Nat.le_refl _, Nat.succ_pos _, ?_, dayOfDate_day y month (rest + 1)⟩
    rw [Nat.add_zero, next] at h
    show rest + 1 ≤ monthLength y month
    omega
  | succ fuel ih =>
    by_cases here : rest < monthLength y month
    · rw [monthAndDay, if_pos here]
      exact ⟨Nat.le_refl _, Nat.le_add_right _ _, Nat.succ_pos _, here, dayOfDate_day y month (rest + 1)⟩
    · rw [monthAndDay, if_neg here]
      have later := dayOfDate_next_month y (month + 1) (by omega)
      obtain ⟨least, most, day, last, same⟩ := ih (rest := rest - monthLength y month) (Nat.le_add_left 1 month) (by
        rw [next, show month + 1 + fuel + 1 = month + (fuel + 1) + 1 by omega]
        omega) later
      exact ⟨by omega, by omega, day, last, by rw [same, next]; omega⟩

/-- The date of an instant is a date, and its instant is the one it was taken from. -/
theorem civilOf_spec (t : Nat) : 2000 ≤ (civilOf t).year ∧ 1 ≤ (civilOf t).month ∧ (civilOf t).month ≤ 12 ∧
    1 ≤ (civilOf t).day ∧ (civilOf t).day ≤ monthLength (civilOf t).year (civilOf t).month ∧ (civilOf t).hour ≤ 23 ∧
    (civilOf t).minute ≤ 59 ∧ (civilOf t).second ≤ 59 ∧ instantOf (civilOf t) = t := by
  obtain ⟨era, least, most⟩ := yearOfDay_bounds (dayNumber t)
  have december : dayOfDate (yearOfDay (dayNumber t)) (1 + 11 + 1) 1 =
      dayOfDate (yearOfDay (dayNumber t)) 12 1 + 31 := dayOfDate_next_month _ 12 (by omega)
  have january := dayOfDate_next_year (yearOfDay (dayNumber t)) era
  rw [dayOfDate_january] at january
  obtain ⟨first, last, day, ends, same⟩ := monthAndDay_spec (y := yearOfDay (dayNumber t)) 11 (month := 1)
    (rest := dayNumber t - daysBeforeYear (yearOfDay (dayNumber t))) (Nat.le_refl 1) (by
      rw [dayOfDate_january]
      omega)
  rw [dayOfDate_january, Nat.add_sub_cancel' least] at same
  refine ⟨era, first, last, day, ends, ?_, ?_, ?_, ?_⟩
  · show secondOfDay t / 3600 ≤ 23
    unfold secondOfDay dayNumber Config.daySeconds
    omega
  · show secondOfDay t / 60 % 60 ≤ 59
    omega
  · show secondOfDay t % 60 ≤ 59
    omega
  · show Config.daySeconds * dayOfDate (civilOf t).year (civilOf t).month (civilOf t).day +
      3600 * (secondOfDay t / 3600) + 60 * (secondOfDay t / 60 % 60) + secondOfDay t % 60 = t
    have date : dayOfDate (civilOf t).year (civilOf t).month (civilOf t).day = dayNumber t := same
    rw [date]
    unfold secondOfDay dayNumber Config.daySeconds
    omega

theorem yearOfDay_le (h : d ≤ 36524) : yearOfDay d ≤ 2099 := by
  simp only [yearOfDay]
  split <;> omega

/-- An instant of the calendar's range has a date in range. -/
theorem civilInRange_civilOf (h : t ≤ 3155759999) : civilInRange (civilOf t) = true := by
  obtain ⟨era, first, last, day, ends, hour, minute, second, -⟩ := civilOf_spec t
  have year : (civilOf t).year ≤ 2099 := yearOfDay_le (d := dayNumber t) (by
    unfold dayNumber Config.daySeconds
    omega)
  exact civilInRange_iff.2 ⟨era, year, first, last, day, ends, hour, minute, second⟩

/-! ### What a taken frame leaves of its port -/

theorem PortState.adoptDue_counts (x : PortState) : layPort x.adoptDue = layPort x ∧ x.adoptDue.lost = x.lost ∧
    x.adoptDue.link = x.link ∧ x.adoptDue.mask = x.mask ∧ x.adoptDue.lostCount = x.lostCount := by
  rw [x.adoptDue_frame]
  exact ⟨rfl, rfl, rfl, rfl, rfl⟩

theorem layPort_takeFrame (s : State) (p q : Port) : layPort ((s.takeFrame p).port q) = layPort (s.port q) := by
  by_cases same : q = p
  · subst same
    rw [State.takeFrame_port_self]
    exact (s.port q).adoptDue_counts.1
  · rw [State.takeFrame_port_ne same]

theorem layFlags_takeFrame (s : State) (p : Port) : layFlags (s.takeFrame p) p = layFlags s p := by
  obtain ⟨-, lost, link, mask, count⟩ := (s.port p).adoptDue_counts
  unfold layFlags flagOctet maskOctet
  rw [State.takeFrame_port_self]
  dsimp only
  rw [lost, link, mask, count] <;> rfl

/-! ### The reads -/

theorem dstStateCode_octet (rules : DstRules) (t : Nat) : oct (dstStateCode rules t) =
    if rules.enabled then (if inForce rules t then 2 else 1) else 0 := by
  unfold dstStateCode
  split
  · split <;> rfl
  · rfl

theorem activeAddress_eq (s : State) (m : Nat) :
    activeAddress s m = ((tget s.config.active.meters m).map MeterEntry.address).getD 0 := by
  unfold activeAddress
  cases tget s.config.active.meters m <;> rfl

theorem verdictCode_octet (v : Verdict) : oct (verdictCode v) = if v = .lapsed then 1 else 0 := by
  cases v <;> rfl

theorem backupCode_octet (b : BackupState) : oct (backupCode b) = if b = .low then 1 else 0 := by
  cases b <;> rfl

/-- Settles O37: each read lays out what stands, TIME_GET the dates of t with and without daylight saving. -/
theorem wholeReadsChangeNothing : Obligations.WholeReadsChangeNothing := by
  intro s p f
  refine ⟨fun taking range => ?_, fun taking => ?_, fun taking => ?_⟩
  · obtain ⟨-, -, -, -, -, -, -, -, same⟩ := civilOf_spec s.calendar.t
    obtain ⟨era, first, last, day, ends, hour, minute, second, summer⟩ :=
      civilOf_spec (localTime s.calendar.rules s.calendar.t)
    refine ⟨civilOf s.calendar.t, civilOf (localTime s.calendar.rules s.calendar.t), civilInRange_civilOf range, same,
      first, last, day, ends, hour, minute, second, era, ?_, ?_⟩
    · rw [summer]
      unfold localTime
      split <;> rfl
    · refine (exec_of_taking (i := .timeGet p) (kind := 0x03) taking rfl trivial (mem_anyPort p) rfl).trans
        (congrArg (fun out => Host.Outcome.next (replied s p f (s.takeFrame p) .ok out)) ?_)
      show layCivil _ ++ layCivil _ ++ [oct (dstStateCode s.calendar.rules s.calendar.t), octFlag s.calendar.valid] ++
        layPlan (carriedPlan s.calendar.cycle) = _
      rw [dstStateCode_octet]
      rcases s.calendar.cycle with _ | (_ | _) | _ | _ | _ <;> rfl
  · refine (exec_of_taking (i := .suspendList p) (kind := 0x0F) taking rfl trivial (mem_anyPort p) rfl).trans
      (congrArg (fun out => Host.Outcome.next (replied s p f (s.takeFrame p) .ok out)) ?_)
    exact congrArg (fun address : Nat → Nat => [oct s.suspensions.length] ++
      s.suspensions.flatMap (fun x => laySuspension x.1 (address x.1) x.2)) (funext (activeAddress_eq s))
  · refine (exec_of_taking (i := .partStatus p) (kind := 0x1A) taking rfl trivial (mem_anyPort p) rfl).trans
      (congrArg (fun out => Host.Outcome.next (replied s p f (s.takeFrame p) .ok out)) ?_)
    show [oct (phaseCode s.calendar.cycle)] ++ layCurrentNight s.calendar.cycle ++ [octFlag s.calendar.valid] ++
      be16 s.config.generation.toNat ++ [octFlag s.config.pending.isSome, oct (holderCode s.config.hold),
        oct (verdictCode s.retention.verdict), oct (backupCode s.retention.backup)] ++
      layPort ((s.takeFrame p).port .a) ++ layPort ((s.takeFrame p).port .b) ++ layPort ((s.takeFrame p).port .c) ++
      layFlags (s.takeFrame p) p = _
    rw [layPort_takeFrame, layPort_takeFrame, layPort_takeFrame, layFlags_takeFrame, verdictCode_octet,
      backupCode_octet]
    cases s.config.hold <;> cases s.calendar.cycle <;> rfl

end Sys2Proof.Machine
end

section
/-!
PROOFS. Characters and the ends of frames (sections 9.1 to 9.3): majorities of samples, and the judgement of a frame.
-/

namespace Sys2Proof.Machine

variable {s : State} {p : Port} {idle : Bool} {c : Samples} {x : PortState} {g : RxFrame} {u : Octet}

/-! ### Majorities (R158) -/

/-- How many of some samples of a bit read 0. -/
def zerosIn (c : Samples) (b : Nat) (is : List Nat) : Nat := (is.filter (fun i => !sample c b i)).length

theorem zerosIn_three (c : Samples) (b i j k : Nat) :
    zerosIn c b [i, j, k] = (!sample c b i).toNat + (!sample c b j).toNat + (!sample c b k).toNat := by
  unfold zerosIn
  cases hi : sample c b i <;> cases hj : sample c b j <;> cases hk : sample c b k <;> simp [hi, hj, hk]

theorem majority_eq_zerosIn (c : Samples) (b i j k : Nat) :
    majority (sample c b i) (sample c b j) (sample c b k) = decide (zerosIn c b [i, j, k] ≤ 1) := by
  rw [zerosIn_three]
  cases sample c b i <;> cases sample c b j <;> cases sample c b k <;> rfl

theorem disagree_iff_zerosIn (c : Samples) (b i j k : Nat) :
    disagree (sample c b i) (sample c b j) (sample c b k) = true ↔
      zerosIn c b [i, j, k] ≠ 0 ∧ zerosIn c b [i, j, k] ≠ 3 := by
  rw [zerosIn_three]
  cases sample c b i <;> cases sample c b j <;> cases sample c b k <;> decide

theorem startConfirmed_iff : startConfirmed c = true ↔ 2 ≤ zerosIn c 0 [4, 6, 8] := by
  unfold startConfirmed
  rw [majority_eq_zerosIn, Bool.not_eq_true', decide_eq_false_iff_not]
  omega

theorem noisy_iff : noisy c = true ↔
    ∃ b, 1 ≤ b ∧ b ≤ 9 ∧ zerosIn c b [7, 8, 9] ≠ 0 ∧ zerosIn c b [7, 8, 9] ≠ 3 := by
  unfold noisy
  simp only [List.any_eq_true, disagree_iff_zerosIn]
  constructor
  · rintro ⟨b, hb, h⟩
    refine ⟨b, ?_, ?_, h⟩
    · fin_cases hb <;> omega
    · fin_cases hb <;> omega
  · rintro ⟨b, least, most, h⟩
    refine ⟨b, ?_, h⟩
    interval_cases b <;> decide

theorem testBit_zero_two_mul_add (n : Nat) (b : Bool) : (2 * n + b.toNat).testBit 0 = b := by
  rw [Nat.testBit_zero]
  cases b
  · simp
  · simp

theorem testBit_succ_two_mul_add (n i : Nat) (b : Bool) : (2 * n + b.toNat).testBit (i + 1) = n.testBit i := by
  rw [Nat.testBit_succ]
  congr 1
  have := b.toNat_le
  omega

/-- The bits of an octet laid out from eight. -/
theorem getLsbD_ofBits (f : Nat → Bool) {i : Nat} (h : i < 8) :
    (oct ([7, 6, 5, 4, 3, 2, 1, 0].foldl (fun n i => 2 * n + (f i).toNat) 0)).getLsbD i = f i := by
  unfold oct
  rw [BitVec.getLsbD_ofNat, decide_eq_true h, Bool.true_and]
  simp only [List.foldl_cons, List.foldl_nil]
  interval_cases i <;> simp only [testBit_zero_two_mul_add, testBit_succ_two_mul_add]

/-- The octet of a character is the one of its bits' majorities. -/
theorem charOctet_eq {o : Octet} (h : ∀ i, i < 8 → o.getLsbD i = bitValue c (i + 1)) : charOctet c = o := by
  refine BitVec.eq_of_getLsbD_eq fun i hi => ?_
  rw [h i hi]
  exact getLsbD_ofBits (fun i => bitValue c (i + 1)) hi

/-! ### Characters at a port that listens (R158) -/

/-- A port once the line before a character has ended its wait, if it has been idle. -/
def PortState.heardAfter (x : PortState) (idle : Bool) : PortState := if idle then x.endWait else x

/-- A port that is not reading back its own response takes a confirmed character where it searches. -/
theorem character_listening (listens : p = .c → (s.port .c).transmitter = none) :
    let w := (s.port p).adoptDue.heardAfter idle
    s.character p idle c = s.setPort p
      (if startConfirmed c = true ∧ w.receiver.waitIdle = false then w.receive c else w) := by
  intro w
  have heard : (if idle then (s.adoptDue p).setPort p ((s.adoptDue p).port p).endWait else s.adoptDue p) =
      s.setPort p w := by
    cases idle
    · rfl
    · show (s.adoptDue p).setPort p _ = _
      rw [State.adoptDue_port]
      exact State.setPort_setPort _ _ _ _
  have silent : p = .c → ((s.setPort p w).port p).transmitter = none := by
    rintro rfl
    rw [State.port_setPort_self]
    show (PortState.heardAfter _ idle).transmitter = none
    have := listens rfl
    cases idle
    · exact (PortState.adoptDue_transmitter _).trans this
    · exact (PortState.adoptDue_transmitter _).trans this
  unfold State.character
  dsimp only
  rw [heard]
  cases startConfirmed c with
  | false => rfl
  | true =>
    have searched : (if ((s.setPort p w).port p).receiver.waitIdle then s.setPort p w
        else (s.setPort p w).setPort p (((s.setPort p w).port p).receive c)) =
        s.setPort p (if true = true ∧ w.receiver.waitIdle = false then w.receive c else w) := by
      rw [State.port_setPort_self, State.setPort_setPort]
      cases w.receiver.waitIdle <;> rfl
    rw [← searched]
    cases p with
    | a => rfl
    | b => rfl
    | c =>
      rw [silent rfl]
      rfl

theorem exec_characterReceived (on : s.retention.powered = true) :
    exec (.characterReceived p idle c) s = .next (s.character p idle c) :=
  congrArg Host.Outcome.next (whenPowered_on on)

/-- A receiver that searches, or whose line has been idle, searches from then on. -/
theorem heardAfter_searching (h : x.receiver.waitIdle = false ∨ idle = true) :
    x.heardAfter idle = { x with receiver := ⟨x.receiver.frame, false⟩ } := by
  rcases h with searching | rfl
  · have same : x.endWait = x := by
      unfold PortState.endWait
      rw [← searching]
    unfold PortState.heardAfter
    rw [same, ite_self]
    exact same.symm
  · rfl

/-- What a character confirmed at a searching receiver does: noise is counted, and the frame takes or is
condemned by it. -/
theorem receive_eq (x : PortState) (c : Samples) : x.receive c =
    { x with
      noise := if noisy c then min (x.noise + 1) 65535 else x.noise
      receiver := ⟨some (if stopGood c then (x.receiver.frame.getD .fresh).take (charOctet c)
        else (x.receiver.frame.getD .fresh).condemn), false⟩ } := by
  unfold PortState.receive
  cases noisy c <;> rfl

/-- Settles O43: a bit's value is the majority of its samples, and a searching receiver takes the character. -/
theorem charactersByMajority : Obligations.CharactersByMajority := by
  intro s p idle c on listens zeros bit split x counted frame
  have taken := exec_characterReceived (p := p) (idle := idle) (c := c) on
  rw [character_listening listens] at taken
  have value (b : Nat) : bitValue c b = bit b := majority_eq_zerosIn c b 7 8 9
  have isNoisy : noisy c = true ↔ split := noisy_iff
  have counts (y : PortState) (w : PortState) (hw : w = { y with noise := if noisy c then min (x.noise + 1) 65535
      else x.noise }) (kept : y.noise = x.noise) : counted y w := by
    refine ⟨fun h => ?_, fun h => ?_⟩
    · rw [hw, if_pos (isNoisy.2 h)]
    · rw [hw, if_neg fun hn => h (isNoisy.1 hn), ← kept]
  refine ⟨fun waits quiet => ?_, fun few searches => ?_, fun confirmed searches => ⟨fun bad => ?_,
      fun o good bits => ?_⟩⟩
  · subst quiet
    exact taken.trans (congrArg (fun y => Host.Outcome.next (s.setPort p y))
      (if_neg fun h => Bool.false_ne_true (h.2.symm.trans waits)))
  · refine taken.trans (congrArg (fun y => Host.Outcome.next (s.setPort p y)) ?_)
    rw [heardAfter_searching searches]
    exact if_neg fun h => Nat.not_lt.2 (startConfirmed_iff.1 h.1) few
  · rw [heardAfter_searching searches, if_pos ⟨startConfirmed_iff.2 confirmed, rfl⟩, receive_eq,
      if_neg (by rw [stopGood, value, bad]; exact Bool.false_ne_true)] at taken
    exact ⟨_, taken, counts _ _ rfl rfl⟩
  · rw [heardAfter_searching searches, if_pos ⟨startConfirmed_iff.2 confirmed, rfl⟩, receive_eq,
      if_pos (by rw [stopGood, value, good]), charOctet_eq fun i hi => (bits i hi).trans (value (i + 1)).symm] at taken
    exact ⟨_, taken, counts _ _ rfl rfl⟩

/-! ### The end of a frame (R159, R160) -/

/-- A frame that is condemned, over-long or short is discarded. -/
theorem judgeFrame_unusable (h : g.condemned = true ∨ g.overlong = true ∨ g.octets.length < 5) :
    judgeFrame u g = .discarded := by
  unfold judgeFrame
  rcases h with h | h | h
  · exact if_pos h
  · rw [if_pos h, ite_self]
  · rw [if_pos h, ite_self, ite_self]

section
variable (whole : g.condemned = false) (fits : g.overlong = false) (long : 5 ≤ g.octets.length)
include whole fits long

theorem judgeFrame_elsewhere (other : g.octets.getD 0 0 ≠ u ∧ g.octets.getD 0 0 ≠ 0xFF) :
    judgeFrame u g = .ignored := by
  unfold judgeFrame
  rw [if_neg (Bool.eq_false_iff.1 whole), if_neg (Bool.eq_false_iff.1 fits), if_neg (Nat.not_lt.2 long)]
  exact if_pos other

theorem judgeFrame_bad (addressed : ¬ (g.octets.getD 0 0 ≠ u ∧ g.octets.getD 0 0 ≠ 0xFF))
    (bad : g.octets.drop (g.octets.length - 2) ≠ crcOctets (g.octets.take (g.octets.length - 2))) :
    judgeFrame u g = .discarded := by
  unfold judgeFrame
  rw [if_neg (Bool.eq_false_iff.1 whole), if_neg (Bool.eq_false_iff.1 fits), if_neg (Nat.not_lt.2 long)]
  exact (if_neg addressed).trans (if_pos bad)

end

/-- The end of a frame at a port that is not transmitting on port C. -/
theorem exec_frameEnd (on : s.retention.powered = true) (listens : p = .c → (s.port .c).transmitter = none) :
    exec (.frameEnd p) s = .next (s.setPort p (s.port p).adoptDue.lineIdle) := by
  refine congrArg Host.Outcome.next ((whenPowered_on on).trans ?_)
  unfold State.endFrame
  cases p with
  | a => rfl
  | b => rfl
  | c =>
    rw [listens rfl]

theorem lineIdle_none (h : x.receiver.frame = none) : x.lineIdle = { x with receiver := ⟨none, false⟩ } := by
  unfold PortState.lineIdle
  rw [h]

section
variable (h : x.receiver.frame = some g)
include h

theorem lineIdle_discarded (judged : judgeFrame x.line.unitAddr g = .discarded) :
    x.lineIdle = ({ x with receiver := ⟨none, false⟩ } : PortState).countDiscard := by
  unfold PortState.lineIdle
  simp only [h, judged]

theorem lineIdle_ignored (judged : judgeFrame x.line.unitAddr g = .ignored) :
    x.lineIdle = { x with receiver := ⟨none, false⟩ } := by
  unfold PortState.lineIdle
  simp only [h, judged]

theorem lineIdle_accepted {f : Frame} (judged : judgeFrame x.line.unitAddr g = .accepted f) :
    x.lineIdle = ({ x with receiver := ⟨none, false⟩ } : PortState).offer f := by
  unfold PortState.lineIdle
  simp only [h, judged]

end

/-- Settles O44: the judgement in the order of the table decides what becomes of the frame. -/
theorem frameEndJudgesTheFrame : Obligations.FrameEndJudgesTheFrame := by
  intro s p on listens x freed discarded ends
  have ended {z : PortState} (h : x.lineIdle = z) : ends z := h ▸ exec_frameEnd on listens
  refine ⟨fun none => ended (lineIdle_none none), fun g assembling => ?_⟩
  intro n addressed good
  have isAddressed (long : 5 ≤ n) : addressed ↔ ¬ (g.octets.getD 0 0 ≠ x.line.unitAddr ∧ g.octets.getD 0 0 ≠ 0xFF) := by
    show g.octets.head? = _ ∨ g.octets.head? = _ ↔ _
    cases octets : g.octets with
    | nil =>
      have : n = 0 := congrArg List.length octets
      omega
    | cons o rest =>
      rw [List.head?_cons, List.getD_cons_zero, Option.some.injEq, Option.some.injEq, not_and_or, not_ne_iff,
        not_ne_iff]
  refine ⟨fun unusable => ended (lineIdle_discarded assembling (judgeFrame_unusable unusable)),
    fun whole fits long elsewhere => ended (lineIdle_ignored assembling (judgeFrame_elsewhere whole fits long
      (not_not.1 fun h => elsewhere ((isAddressed long).2 h)))),
    fun whole fits long here bad => ended (lineIdle_discarded assembling (judgeFrame_bad whole fits long
      ((isAddressed long).1 here) bad)), fun a k tag payload c1 c0 whole fits here hasCrc octets => ?_⟩
  have long : 5 ≤ g.octets.length := by simp [octets]
  have spelled : frameOf g.octets = ⟨a, k, tag, payload⟩ := by
    unfold frameOf
    rw [octets]
    simp
  have accepted : judgeFrame x.line.unitAddr g = .accepted ⟨a, k, tag, payload⟩ :=
    judgeFrame_eq_accepted.2 ⟨whole, fits, long, by
      have := (isAddressed long).1 here
      rwa [not_and_or, not_ne_iff, not_ne_iff] at this, hasCrc, spelled⟩
  exact ⟨fun room => ended ((lineIdle_accepted assembling accepted).trans (if_pos room)),
    fun full => ended ((lineIdle_accepted assembling accepted).trans (if_neg (Nat.not_lt.2 full)))⟩

end Sys2Proof.Machine
end

section
/-!
PROOFS. Responses, the port reset and port settings (sections 9.4 to 9.7).
-/

namespace Sys2Proof.Machine

variable {s : State} {p q : Port} {idle : Bool} {c : Samples} {x : PortState} {tx : Transmission} {o : Octet}

/-! ### The end of a response (R161, R162) -/

theorem exec_responseSent (on : s.retention.powered = true) (sends : (s.port p).transmitter = some tx) :
    exec (.responseSent p) s = .next (s.transmitterFree p) := by
  refine congrArg Host.Outcome.next ((whenPowered_on on).trans ?_)
  unfold finishResponse
  rw [sends]

theorem transmitterFree_c (s : State) : s.transmitterFree .c = s.setPort .c { s.port .c with transmitter := none } :=
  rfl

/-- An abandoned response frees the transmitter and counts a bit error (R162). -/
theorem abandonEcho_eq (s : State) : s.abandonEcho = s.setPort .c { s.port .c with
    transmitter := none
    bitError := min ((s.port .c).bitError + 1) 65535
    link := true
    receiver := ⟨(s.port .c).receiver.frame, true⟩ } := by
  unfold State.abandonEcho
  dsimp only
  rw [transmitterFree_c, State.port_setPort_self]
  exact State.setPort_setPort _ _ _ _

theorem abandonEcho_setPort (s : State) (y : PortState) : (s.setPort .c y).abandonEcho = s.setPort .c { y with
    transmitter := none
    bitError := min (y.bitError + 1) 65535
    link := true
    receiver := ⟨y.receiver.frame, true⟩ } := by
  rw [abandonEcho_eq, State.port_setPort_self, State.setPort_setPort]

theorem exec_echoMismatch (on : s.retention.powered = true) (sends : (s.port .c).transmitter = some tx) :
    exec .echoMismatch s = .next s.abandonEcho := by
  refine congrArg Host.Outcome.next ((whenPowered_on on).trans ?_)
  unfold mismatch
  rw [sends]

/-- While port C sends, a character is its echo; a line that had been idle ends a wait. -/
theorem character_sending (sends : (s.port .c).transmitter = some tx) :
    s.character .c idle c = if startConfirmed c then (s.setPort .c ((s.port .c).heardAfter idle)).echo tx c
      else s.setPort .c ((s.port .c).heardAfter idle) := by
  have settled : (s.port .c).adoptDue = s.port .c :=
    (s.port .c).adoptDue_of_transmitting (by rw [sends]; exact Option.some_ne_none tx)
  have heard : (if idle then (s.adoptDue .c).setPort .c ((s.adoptDue .c).port .c).endWait else s.adoptDue .c) =
      s.setPort .c ((s.port .c).heardAfter idle) := by
    cases idle
    · exact congrArg (s.setPort .c) settled
    · show (s.adoptDue .c).setPort .c _ = _
      rw [State.adoptDue_port, settled]
      exact State.setPort_setPort _ _ _ _
  have still : ((s.setPort .c ((s.port .c).heardAfter idle)).port .c).transmitter = some tx := by
    rw [State.port_setPort_self]
    cases idle
    · exact sends
    · exact sends
  unfold State.character
  dsimp only
  rw [heard, still]

/-- A character read back: noise is counted, and it advances the echo or abandons the response. -/
theorem echo_eq (s : State) (h : tx.response.octets[tx.echoed]? = some o) :
    let y := if noisy c then (s.port .c).countNoise else s.port .c
    s.echo tx c = if stopGood c = true ∧ charOctet c = o then
        s.setPort .c { y with transmitter := some { tx with echoed := tx.echoed + 1 } }
      else (s.setPort .c y).abandonEcho := by
  intro y
  have counted : (if noisy c then s.setPort .c (s.port .c).countNoise else s) = s.setPort .c y := by
    show _ = s.setPort .c (if noisy c then _ else _)
    cases noisy c
    · exact (State.setPort_port s .c).symm
    · rfl
  unfold State.echo
  simp only [h, counted, Bool.and_eq_true, decide_eq_true_eq, State.port_setPort_self, State.setPort_setPort]

/-- Settles O46: a sent response frees the transmitter, and port C's echo goes by the character read back. -/
theorem responsesEndOrAreAbandoned : Obligations.ResponsesEndOrAreAbandoned := by
  intro s p tx on sends x waits done freed
  refine ⟨exec_responseSent on sends, ?_⟩
  rintro rfl abandoned
  have taken (idle : Bool) (c : Samples) :=
    (exec_characterReceived (idle := idle) (c := c) on).trans (congrArg Host.Outcome.next (character_sending sends))
  have heard (idle : Bool) : x.heardAfter idle = waits idle := by
    cases idle
    · show x = { x with receiver := ⟨x.receiver.frame, x.receiver.waitIdle && true⟩ }
      rw [Bool.and_true]
    · show x.endWait = { x with receiver := ⟨x.receiver.frame, x.receiver.waitIdle && false⟩ }
      rw [Bool.and_false]
      rfl
  refine ⟨(exec_echoMismatch on sends).trans (congrArg Host.Outcome.next (abandonEcho_eq s)),
    fun idle c false => ?_, fun idle c o confirmed read => ?_⟩
  · rw [taken, heard, if_neg (Bool.eq_false_iff.1 false)]
  intro y
  have echoed : exec (.characterReceived .c idle c) s =
      .next (if stopGood c = true ∧ charOctet c = o then
        s.setPort .c { y with transmitter := some { tx with echoed := tx.echoed + 1 } }
      else abandoned y) := by
    rw [taken, heard, if_pos confirmed, echo_eq _ read, State.port_setPort_self, abandonEcho_setPort,
      State.setPort_setPort, State.setPort_setPort]
    rfl
  exact ⟨fun same good => echoed.trans (congrArg Host.Outcome.next (if_pos ⟨good, same⟩)),
    fun differs => echoed.trans (congrArg Host.Outcome.next (if_neg fun h =>
      differs.elim (fun other => other h.2) fun bad => Bool.false_ne_true (bad.symm.trans h.1)))⟩

/-! ### The port reset (R163) -/

theorem releaseHold_of_other (h : ∀ x, s.config.hold = some x → x.port ≠ p) : releaseHold p s = s := by
  unfold releaseHold
  rw [heldBy_eq_none.2 fun ⟨x, hold, own⟩ => h x hold own]

theorem releaseHold_of_own {h : Hold} (hold : s.config.hold = some h) (own : h.port = p) : releaseHold p s =
    (s.setHold none).append .stagingDropped (portCode p) (eventNight s) 1 := by
  unfold releaseHold
  rw [heldBy_eq_some.2 ⟨hold, own⟩, ← own]
  rfl

/-- A port reset clears its port before it releases the hold. -/
theorem breakPort_ports (s : State) (p : Port) :
    let ports := if p = .b then s.ports.map PortState.responseDone else s.ports
    (s.transmitterFree p).setPort p ((s.transmitterFree p).port p).broken = { s with
      ports := ports.set p { ports.get p with
        receiver := ⟨none, true⟩, queue := [], transmitter := none, lost := false, link := false,
        lostCount := 0, mask := 0xF } } := by
  cases p with
  | a => rfl
  | c => rfl
  | b =>
    have cleared : (({ s.ports.b with transmitter := none } : PortState).responseDone).broken =
        { s.ports.b.responseDone with
          receiver := ⟨none, true⟩, queue := [], transmitter := none, lost := false, link := false,
          lostCount := 0, mask := 0xF } := by
      unfold PortState.responseDone
      by_cases awaits : s.ports.b.change = .awaiting
      · rw [if_pos awaits, if_pos awaits]
        rfl
      · rw [if_neg awaits, if_neg awaits]
        rfl
    exact congrArg (fun x => s.setPorts ⟨s.ports.a.responseDone, x, s.ports.c.responseDone⟩) cleared

/-- Settles O47: the port is cleared, then a hold of its own is released. -/
theorem portResetClearsThePort : Obligations.PortResetClearsThePort := by
  intro s p on done ports t
  have broken : exec (.portReset p) s = .next (releaseHold p t) := by
    refine congrArg Host.Outcome.next ((whenPowered_on on).trans ?_)
    exact congrArg (releaseHold p) (breakPort_ports s p)
  exact ⟨fun other => broken.trans (congrArg Host.Outcome.next (releaseHold_of_other (s := t) other)),
    fun h hold own => broken.trans (congrArg Host.Outcome.next (releaseHold_of_own (s := t) hold own))⟩

/-! ### Port settings (R164, R166) -/

theorem adoptDue_of_ready (ready : x.change = .ready) (free : x.transmitter = none) : x.adoptDue = x.applySettings :=
  if_pos ⟨ready, free⟩

/-- A waiting frame is served alike before and after a change that is due has been made. -/
theorem serve_adoptDue {mine : Frame → Bool} {owner : Owner} {f : Frame} (waits : waitingFrame s p = some f)
    (takes : mine f = true) : serve mine owner p (s.adoptDue p) = serve mine owner p s := by
  have waits' : waitingFrame (s.adoptDue p) p = some f := by
    obtain ⟨on, free, head⟩ := waitingFrame_eq_some.1 waits
    refine waitingFrame_eq_some.2 ⟨on, ?_, ?_⟩
    · rw [State.adoptDue_port, PortState.adoptDue_transmitter, free]
    · rw [State.adoptDue_port, PortState.adoptDue_queue, head]
  unfold serve
  simp only [waits, waits', takes, if_true, State.takeFrame_adoptDue]

theorem portOfCode_eq_none {n : Nat} (h : 2 < n) : portOfCode n = none := by
  obtain ⟨k, rfl⟩ := Nat.exists_eq_add_of_le' h
  rfl

theorem baudOfCode_eq_none {n : Nat} (h : 4 < n) : baudOfCode n = none := by
  obtain ⟨k, rfl⟩ := Nat.exists_eq_add_of_le' h
  rfl

theorem portOfCode_portCode (q : Port) : portOfCode (portCode q) = some q := by
  cases q <;> rfl

theorem baudOfCode_baudCode (b : Baud) : baudOfCode (baudCode b) = some b := by
  cases b <;> rfl

variable {port addr baud : Octet}

theorem ownPortSettings_range (h : 2 < port.toNat ∨ addr = 0x00 ∨ addr = 0xFF ∨ 4 < baud.toNat) :
    ownPortSettings p [2, port, addr, baud] s = (s, refusal .range) := by
  have item : ¬ (2 : Octet).toNat ≠ 2 := by decide
  simp only [ownPortSettings, if_neg item]
  split
  · rfl
  rename_i addressed
  rcases h with h | rfl | rfl | h
  · rw [portOfCode_eq_none h]
  · exact absurd (.inl rfl) addressed
  · exact absurd (.inr rfl) addressed
  · rw [baudOfCode_eq_none h]
    cases portOfCode port.toNat <;> rfl

theorem ownPortSettings_ok {b : Baud} (named : port.toNat = portCode q) (low : addr ≠ 0x00) (high : addr ≠ 0xFF)
    (rate : baud.toNat = baudCode b) : ownPortSettings p [2, port, addr, baud] s =
      (s.setPort q ((s.port q).storeSettings ⟨addr, b⟩), ⟨.ok, []⟩) := by
  have item : ¬ (2 : Octet).toNat ≠ 2 := by decide
  have addressed : ¬ (addr.toNat = 0x00 ∨ addr.toNat = 0xFF) := by
    rintro (h | h)
    · exact low (BitVec.eq_of_toNat_eq h)
    · exact high (BitVec.eq_of_toNat_eq h)
  simp only [ownPortSettings, if_neg item, if_neg addressed, named, rate, portOfCode_portCode, baudOfCode_baudCode]

/-- Settles O48: settings are stored, and every event of the port finds a change that is due already made. -/
theorem portSettingsAreStoredThenApplied : Obligations.PortSettingsAreStoredThenApplied := by
  intro s
  refine ⟨fun f port addr baud taking => ?_, fun p on ready free => ?_, fun p notDue => ?_⟩
  · have answered {t : State} {x : Status} {out : List Octet}
        (answer : ownPortSettings .b [2, port, addr, baud] (s.takeFrame .b) = (t, ⟨x, out⟩)) :
        exec (.paramSetPortSettings .b) s = .next (replied s .b f t x out) := by
      refine exec_of_taking (i := .paramSetPortSettings .b) (kind := 0x19) taking rfl ?_ List.mem_cons_self answer
      obtain ⟨-, -, payload⟩ := taking
      show f.payload.head? ≠ some 1
      rw [payload]
      show some (2 : Octet) ≠ some 1
      decide
    exact ⟨fun bad => answered (ownPortSettings_range bad),
      fun q b named low high rate => answered (ownPortSettings_ok named low high rate)⟩
  · intro a
    have made : s.adoptDue p = a := congrArg (s.setPort p) (adoptDue_of_ready ready free)
    have settled : (a.port p).adoptDue = (s.port p).adoptDue := by
      rw [← made, State.adoptDue_port, PortState.adoptDue_adoptDue]
    have free' : (a.port p).transmitter = none := by
      rw [← made, State.adoptDue_port, PortState.adoptDue_transmitter, free]
    have again (y : PortState) : a.setPort p y = s.setPort p y := State.setPort_setPort _ _ _ _
    refine ⟨congrArg Host.Outcome.next ((whenPowered_on on).trans made), ?_, fun idle c => ?_,
        fun f rest i queue takes => ?_⟩
    · rw [exec_frameEnd on fun h => h ▸ free, exec_frameEnd (s := a) on fun h => h ▸ free', settled, again]
    · rw [exec_characterReceived on, exec_characterReceived (s := a) on, character_listening fun h => h ▸ free,
        character_listening (s := a) fun h => h ▸ free', settled, again]
    · have waits : waitingFrame s p = some f := waitingFrame_eq_some.2 ⟨on, free, by rw [queue]; rfl⟩
      refine ⟨?_, ?_⟩
      · rw [← made]
        rcases takes with ⟨rfl, unknown⟩ | ⟨request, item⟩
        · refine congrArg Host.Outcome.next (serve_adoptDue waits ?_).symm
          rw [Bool.not_eq_true', Bool.eq_false_iff, Ne, knownKind_iff]
          omega
        · rw [exec_request request, exec_request request, serve_adoptDue waits ((minesOf_iff request).2 ⟨rfl, item⟩)]
      · rw [← made, State.takeFrame_adoptDue, State.takeFrame_port_self, adoptDue_of_ready ready free, queue]
        rfl
  · exact exec_not_due (.portSettingsApplied p) s (.inr notDue)

end Sys2Proof.Machine
end

section
/-!
PROOFS. Start-ups and the supply (chapter 11): the entry at a start-up leaves no boundary waiting, and what a
power-up, the reset line and a loss of main power leave.
-/

namespace Sys2Proof.Machine

variable {s t u : State} {b : BackupState} {d f : Nat} {night : NightParams} {rules : DstRules}

/-! ### The entry at a start-up (R76) -/

/-- A later night does not start before an earlier one. -/
theorem startsAt_mono (h : f ≤ d) : (planFor night rules f).startsAt ≤ (planFor night rules d).startsAt := by
  rcases Nat.eq_or_lt_of_le h with rfl | later
  · exact Nat.le_refl _
  have first := nightOffset_cases rules f
  have second := nightOffset_cases rules d
  simp only [planFor, windowStartOf, NightPlan.startsAt, Config.intervalSeconds]
  split <;> omega

theorem firstUnopened_ahead (h : firstUnopened night rules d = some f) : d < (planFor night rules f).startsAt := by
  simpa using List.find?_some h

/-- An entry at a start-up leaves no boundary that t has reached. -/
theorem nothingDue_enterStartUp (s : State) :
    NothingDue (enterStartUp s).calendar.cycle (enterStartUp s).calendar.t := by
  unfold enterStartUp
  dsimp only
  split
  case isFalse => trivial
  split
  · rename_i d hd
    obtain ⟨hspan, -⟩ := Option.filter_eq_some_iff.1 hd
    obtain ⟨-, closes⟩ := nightSpanning_spans _ _ _ hspan
    split
    · rename_i p hp
      obtain ⟨lawful, -⟩ := plan_eq_some hp
      rw [← plan_eq_planFor hp] at closes
      rw [reenterNight_calendar]
      show NothingDue (reenteredPhase s.calendar.t p) s.calendar.t
      unfold reenteredPhase
      split
      · rename_i before
        exact ⟨lawful, before⟩
      · exact ⟨lawful, closes⟩
    · trivial
  · cases hp : ((firstUnopened s.config.active.night s.calendar.rules s.calendar.t).map
        s.calendar.firstToPlan).bind s.plan with
    | none => trivial
    | some p =>
      obtain ⟨d, hd, hplan⟩ := Option.bind_eq_some_iff.1 hp
      obtain ⟨f, hf, rfl⟩ := Option.map_eq_some_iff.1 hd
      refine ⟨(plan_eq_some hplan).1, ?_⟩
      have starts := startsAt_mono (night := s.config.active.night) (rules := s.calendar.rules)
        (s.calendar.firstToPlan_spec f).1
      rw [← plan_eq_planFor hplan] at starts
      exact Nat.lt_of_lt_of_le (firstUnopened_ahead hf) starts

/-- An entry at a start-up acts on the night's own items alone. -/
theorem enterStartUp_keeps (s : State) : (enterStartUp s).pending = s.pending ∧ (enterStartUp s).config = s.config ∧
    (enterStartUp s).events = s.events ∧ (enterStartUp s).ports = s.ports ∧
    (enterStartUp s).retention = s.retention := by
  rcases enterStartUp_cases s with ⟨-, he⟩ | ⟨-, ⟨closed, o, -, he⟩ | ⟨closed, p, -, -, -, -, he⟩⟩ <;> rw [he]
  · exact ⟨rfl, rfl, rfl, rfl, rfl⟩
  · exact ⟨rfl, rfl, rfl, rfl, rfl⟩
  · unfold reenterNight
    rw [enterNight_eq]
    exact ⟨rfl, rfl, rfl, rfl, rfl⟩

/-- The first event of an empty queue. -/
theorem append_started (h : s.events = .started) (kind : EventKind) (subject night : Nat) (detail : Int) :
    s.append kind subject night detail =
      { s with events := ⟨[⟨0, kind, subject, night, detail⟩], 1, ⟨0, 0, 0⟩⟩ } := by
  have room : s.makeRoom = s := makeRoom_of_room (by rw [h]; decide)
  unfold State.append
  dsimp only
  rw [room, h]
  rfl

/-- After a start-up BACKUP_LOW is the only event, where the backup state is LOW (R173). -/
theorem appendBackupLow_started (h : s.events = .started) (backup : s.retention.backup = b) : appendBackupLow s =
    { s with events := if b = .low then ⟨[⟨0, .backupLow, 0, eventNight s, 0⟩], 1, ⟨0, 0, 0⟩⟩
      else ⟨[], 0, ⟨0, 0, 0⟩⟩ } := by
  unfold appendBackupLow
  rw [backup]
  cases b with
  | low => exact append_started h _ _ _ _
  | good =>
    show s = { s with events := EventQueue.started }
    rw [← h]

/-- A power-up with the latch clear is a start-up of what the part holds. -/
theorem exec_powerUp_intact (off : s.retention.powered = false) (clear : s.retention.latch = false) :
    exec (.powerUp b) s = .next (fireDue (installNow (appendBackupLow (enterStartUp
      (startMain (s.setRetention ⟨true, .intact, false, b⟩)))))) := by
  refine congrArg Host.Outcome.next ((if_neg (Bool.eq_false_iff.1 off)).trans ?_)
  unfold returnPower judgeRetention
  rw [clear]
  rfl

theorem exec_resetLine (on : s.retention.powered = true) :
    exec .resetLine s = .next (fireDue (installNow (appendBackupLow (enterStartUp (loseMain s))))) :=
  congrArg Host.Outcome.next (whenPowered_on on)

/-- What a start-up leaves of an entry e: BACKUP_LOW where it is due, then a pending set installed in DAY and HALTED. -/
theorem startUp_spec (empty : u.events = .started) (backup : u.retention.backup = b) :
    let e := enterStartUp u
    let v : State := { e with
      events := if b = .low then ⟨[⟨0, .backupLow, 0, eventNight e, 0⟩], 1, ⟨0, 0, 0⟩⟩ else ⟨[], 0, ⟨0, 0, 0⟩⟩ }
    let x := fireDue (installNow (appendBackupLow e))
    (u.config.pending = none → x = v) ∧
    (∀ n, (e.calendar.cycle = .opened n ∨ e.calendar.cycle = .grace n) → x = v) ∧
    (u.config.pending ≠ none →
      (e.calendar.cycle = .halted → x = install 0 v) ∧
      ∀ n, e.calendar.cycle = .day n → FiresTo (install (eventNight e) v) x) := by
  intro e v x
  obtain ⟨-, config, events, -, retention⟩ := enterStartUp_keeps u
  have appended : appendBackupLow e = v :=
    appendBackupLow_started (events.trans empty) ((congrArg Retention.backup retention).trans backup)
  have still (h : installNow v = v) : x = v := by
    show fireDue (installNow (appendBackupLow e)) = v
    rw [appended, h]
    exact fireDue_ahead (nothingDue_enterStartUp u)
  have installs {night : Nat} (phase : installPhase e.calendar.cycle = true) (named : eventNight e = night) :
      x = fireDue (install night v) := by
    show fireDue (installNow (appendBackupLow e)) = _
    rw [appended]
    exact congrArg fireDue ((if_pos phase).trans (congrArg (install · v) named))
  refine ⟨fun none => still (installNow_of_none ((congrArg ConfigStore.pending config).trans none)),
    fun n current => still (if_neg ?_), fun _ => ⟨fun hc => ?_, fun n hc => ?_⟩⟩
  · show ¬ installPhase e.calendar.cycle = true
    rcases current with hc | hc <;> rw [hc] <;> exact Bool.false_ne_true
  · rw [installs (night := 0) (by rw [hc]; rfl) (by simp only [eventNight, hc, carriedPlan])]
    refine fireDue_of_halted ?_
    rw [install_calendar (s := v) fun n hn => by cases (hc.symm.trans hn)]
    exact hc
  · rw [installs (by rw [hc]; rfl) rfl]
    exact fireDue_firesTo _

/-- Settles O49: both start-ups enter the cycle from the retained state with main-domain items at their
start-up values. -/
theorem startUpKeepsRetainedState : Obligations.StartUpKeepsRetainedState := by
  intro s b i taken leftOut brokenOff u
  have entered : exec i s = .next (fireDue (installNow (appendBackupLow (enterStartUp u)))) ∧
      u.retention.backup = b := by
    rcases taken with ⟨rfl, off, clear⟩ | ⟨rfl, on, rfl⟩
    · rw [exec_powerUp_intact off clear]
      have started : startMain (s.setRetention ⟨true, .intact, false, b⟩) = u := by
        simp only [u, off, Bool.false_eq_true, if_false] <;> rfl
      rw [started]
      exact ⟨rfl, by simp only [u, off, Bool.false_eq_true, if_false]⟩
    · rw [exec_resetLine on]
      have started : loseMain s = u := by
        simp only [u, leftOut, brokenOff, on, if_true, loseMain, interruptNight]
        cases s.calendar.cycle <;> rfl
      rw [started]
      exact ⟨rfl, by simp only [u, on, if_true]⟩
  obtain ⟨answer, backup⟩ := entered
  exact ⟨enterStartUp u, _, enterStartUp_startEntry u rfl rfl rfl rfl rfl rfl rfl, answer, startUp_spec rfl backup⟩

end Sys2Proof.Machine
end

section
/-!
PROOFS. The supply commands (chapter 11): a LAPSED power-up, what a loss of main power keeps, the latch and the backup
monitor.
-/

namespace Sys2Proof.Machine

variable {s t u : State} {b : BackupState} {i : Instr}

/-! ### A LAPSED power-up (R171) -/

/-- A power-up with the latch set leaves the state of a reset, whatever the state before. -/
theorem returnPower_lapsed (latch : s.retention.latch = true) : returnPower b s =
    { State.reset with
      pending := s.pending
      events := if b = .low then ⟨[⟨0, .retentionLapsed, 0, 0, 0⟩, ⟨1, .backupLow, 0, 0, 0⟩], 2, ⟨0, 0, 0⟩⟩
        else ⟨[⟨0, .retentionLapsed, 0, 0, 0⟩], 1, ⟨0, 0, 0⟩⟩
      retention := ⟨true, .lapsed, false, b⟩ } := by
  unfold returnPower judgeRetention
  rw [latch]
  cases b <;> rfl

theorem exec_powerUp (off : s.retention.powered = false) : exec (.powerUp b) s = .next (returnPower b s) :=
  congrArg Host.Outcome.next (if_neg (Bool.eq_false_iff.1 off))

/-! ### Retention through the other commands -/

theorem tick_retention (s : State) : (tick s).retention = s.retention := by
  unfold tick
  split
  · exact (fireDue_frame _).retention
  · unfold rangeEnd
    dsimp only
    split
    · exact (installNow_frame _).retention
    · rfl
    · rfl
    · rfl
    · rfl

/-- Without main power a command other than a power-up is not due, or a second of the calendar, or the latch
being set. -/
theorem exec_unpowered_retention (off : s.retention.powered = false) (latch : s.retention.latch = true)
    (other : ∀ b, i ≠ .powerUp b) : ∃ t, exec i s = .next t ∧ t.retention = s.retention := by
  have requests {i : Instr} (h : NotDue i s) : ∃ t, exec i s = .next t ∧ t.retention = s.retention :=
    ⟨s, exec_not_due i s h, rfl⟩
  cases i with
  | calendarTick => exact ⟨tick s, rfl, tick_retention s⟩
  | calendarRangeEnd =>
    by_cases before : s.calendar.t < 3155759999
    · exact requests before
    · exact ⟨tick s, congrArg Host.Outcome.next (if_pos (Nat.not_lt.1 before)), tick_retention s⟩
  | powerUp b => exact absurd rfl (other b)
  | backupLatchSet =>
    refine ⟨setLatch s, congrArg Host.Outcome.next (if_neg (Bool.eq_false_iff.1 off)), ?_⟩
    show { s.retention with latch := true } = s.retention
    rw [← latch]
  | unknownKind p => exact requests (.inl off)
  | frameEnd | responseSent | echoMismatch | portSettingsApplied | windowStart | windowEnd | graceEnd | infillPass
    | handOver | settlementComplete | settlementEnd | burstEntry | holdTimerExpiry | backupGoodToLow
    | backupLowToGood =>
    exact requests (.inl off)
  | portReset | resetLine | mainPowerLoss | characterReceived => exact requests off
  | _ => exact requests fun _ _ _ => .inl off

/-- The last steps of a start-up keep the retention items and hold nothing that its entry does not. -/
theorem startUp_keeps (u : State) :
    (fireDue (installNow (appendBackupLow (enterStartUp u)))).retention = u.retention ∧
    (fireDue (installNow (appendBackupLow (enterStartUp u)))).config.hold = u.config.hold := by
  obtain ⟨-, config, -, -, retention⟩ := enterStartUp_keeps u
  have appended : (appendBackupLow (enterStartUp u)).config = (enterStartUp u).config := by
    unfold appendBackupLow
    split
    · exact State.append_config _ _ _ _ _
    · rfl
  constructor
  · rw [(fireDue_frame _).retention, (installNow_frame _).retention, appendBackupLow_retention, retention]
  · rw [(fireDue_frame _).config, (installNow_frame _).hold, appended, config]

/-- Every port's queue is empty. -/
def NoneWaiting (s : State) : Prop := ∀ p, (s.port p).queue = []

theorem portsKept_noneWaiting : PortsKept NoneWaiting where
  congr {u v} hu _ hp p := (congrArg (fun x : PerPort PortState => (x.get p).queue) hp).trans (hu p)
  appends _ _ _ _ _ hu p := (State.append_port_queue ..).trans (hu p)
  starts _ _ p := by cases p <;> rfl
  lapses _ hu
    | .a => hu .a
    | .b => hu .b
    | .c => hu .c

theorem returnPower_retention (b : BackupState) (s : State) : (returnPower b s).retention =
    ⟨true, if s.retention.latch then .lapsed else .intact, false, b⟩ := by
  cases latch : s.retention.latch with
  | true =>
    rw [returnPower_lapsed latch]
    rfl
  | false =>
    unfold returnPower judgeRetention
    rw [latch]
    exact (startUp_keeps _).1

/-! ### The loss of main power and the backup monitor (R170, R173) -/

/-- What a loss of the main domain's content keeps of the retained items. -/
theorem losePower_calendar (s : State) : (losePower s).calendar.t = s.calendar.t ∧
    (losePower s).calendar.valid = s.calendar.valid ∧ (losePower s).calendar.rules = s.calendar.rules := by
  show (interruptNight s.calendar).t = _ ∧ (interruptNight s.calendar).valid = _ ∧ (interruptNight s.calendar).rules = _
  unfold interruptNight
  split <;> exact ⟨rfl, rfl, rfl⟩

/-- Settles O50: each supply command by its own rule; a LAPSED power-up ends in the state of a reset. -/
theorem supplyCommandsAct : Obligations.SupplyCommandsAct := by
  intro s
  refine ⟨fun off latch => ⟨?_, ?_, fun i other => exec_unpowered_retention off latch other⟩,
    fun off b => ⟨_, exec_powerUp off, returnPower_retention b s⟩, fun on => ⟨?_, ?_, fun good => ?_, fun low => ?_⟩,
    fun off => congrArg Host.Outcome.next (if_neg (Bool.eq_false_iff.1 off))⟩
  · exact (exec_powerUp off).trans (congrArg Host.Outcome.next (returnPower_lapsed latch))
  · exact (exec_powerUp off).trans (congrArg Host.Outcome.next (returnPower_lapsed latch))
  · obtain ⟨retention, hold⟩ := startUp_keeps (loseMain s)
    have started : NoneWaiting (loseMain s) := fun p => by cases p <;> rfl
    exact ⟨_, exec_resetLine on, retention, hold, portsKept_noneWaiting.startUp started⟩
  · obtain ⟨instant, valid, rules⟩ := losePower_calendar s
    refine ⟨losePower s, congrArg Host.Outcome.next (whenPowered_on on), rfl, instant, valid, rules, ?_, ?_,
      rfl, rfl, rfl, rfl, fun p => by cases p <;> rfl⟩
    · show (interruptNight s.calendar).leftOut = _
      unfold interruptNight
      cases s.calendar.cycle <;> rfl
    · show (interruptNight s.calendar).brokenOff = _
      unfold interruptNight
      cases s.calendar.cycle <;> rfl
  · refine congrArg Host.Outcome.next ((whenPowered_on on).trans ?_)
    unfold backupFalls
    rw [good]
    rfl
  · exact congrArg Host.Outcome.next (whenPowered_on on)

end Sys2Proof.Machine
end
